-- ==== Sys2Proof/Word.lean ====
section
/-! DEFINITION. The word types of the core: 32-bit data words, 24-bit program addresses, 48-bit instruction words
(spec/00_scope.md R3, R5). -/

namespace Sys2Proof

/-- A 32-bit data word, register value or data address (10_state R14, 20_memory R61). -/
abbrev Word := BitVec 32

/-- A 24-bit program address (10_state R20). -/
abbrev PAddr := BitVec 24

/-- A 48-bit instruction word (30_encoding R90). -/
abbrev IWord := BitVec 48

/-- A byte of a memory cell. -/
abbrev Byte := BitVec 8

/-- The multiplier result register's value. PRESUMED: 80 bits, the family's width (log 27); unsafe. -/
abbrev MrWord := BitVec 80

end Sys2Proof
end

