-- ==== Sys2Proof/Syntax.lean ====
section
/-! DEFINITION. The instruction terms: one constructor of `Instr` per row of spec/opcode_table.json, with the term
fields that the instruction's own rule names (spec/30_encoding.md R91, R93, R95). -/

namespace Sys2Proof

/-- The number of a data register R0-R15 / F0-F15 (30_encoding R93, `dreg`). -/
abbrev DReg := Fin 16

/-- The two data buses, also the two access spellings (20_memory R60). -/
inductive Bus where
  | dm
  | pm
deriving DecidableEq, Repr

/-- The direction of a move (41_compute_move R143). -/
inductive Dir where
  | store
  | load
deriving DecidableEq, Repr

/-- The universal registers 10_state R40 names. The constructors from `pc` on are named there and not admitted (D41);
`laddr` is admitted (R33, R40, log 18). -/
inductive UReg where
  | r (n : Fin 16)
  | i (n : Fin 16)
  | m (n : Fin 16)
  | l (n : Fin 16)
  | b (n : Fin 16)
  | tcount
  | tperiod
  | lcntr
  | laddr
  | mode1
  | mode2
  | mmask
  | astat
  | irptl
  | imask
  | lirptl
  | ustat1
  | pc
  | pcstk
  | pcstkp
  | faddr
  | daddr
  | curlcntr
  | ustat2
  | ustat3
  | ustat4
  | flags
  | stky
  | imaskp
  | px
  | px1
  | px2
  | s (n : Fin 16)
deriving DecidableEq, Repr

/-- The system registers 10_state R41 names for `BIT`; those from `flags` on are not admitted (D41). -/
inductive SReg where
  | mode1
  | mode2
  | astat
  | imask
  | irptl
  | lirptl
  | mmask
  | ustat1
  | flags
  | imaskp
  | stky
  | ustat2
  | ustat3
  | ustat4
deriving DecidableEq, Repr

/-- The condition codes of 10_state R36. `always` is TRUE after IF and FOREVER after UNTIL. -/
inductive CondCode where
  | eq | lt | le | ac | av | mv | ms | sv | sz
  | flag0 | flag1 | flag2 | flag3
  | tf | bm
  | ne | ge | gt | notAc | notAv | notMv | notMs | notSv | notSz
  | notFlag0 | notFlag1 | notFlag2 | notFlag3
  | notTf | nbm
  | lce | notLce
  | always
deriving DecidableEq, Repr

/-- A `compute` or `shiftimm` operation term (41_compute_move R141): `none`, or an operation the spec leaves opaque,
named by a code, with the data registers it writes: none, one, two, or any set of them (bit n of `set` for register n).
DESIGN CHOICE: the width of the code (log 2); unsafe. -/
inductive Compute where
  | none
  | quiet (code : BitVec 13)
  | single (code : BitVec 13) (d : DReg)
  | double (code : BitVec 13) (d1 d2 : DReg)
  | multi (code : BitVec 5) (set : BitVec 16)
deriving DecidableEq, Repr

/-- The data registers, R0 first. -/
def DReg.all : List DReg := [0, 1, 2, 3, 4, 5, 6, 7, 8, 9, 10, 11, 12, 13, 14, 15]

/-- The data registers an operation writes. -/
def Compute.dests : Compute → List DReg
  | .none => []
  | .quiet _ => []
  | .single _ d => [d]
  | .double _ d1 d2 => [d1, d2]
  | .multi _ set => DReg.all.filter fun d => set.getLsbD d.val

/-- The clause after an indirect or short branch (43_program_flow section 3). DESIGN CHOICE: its operation may be `none`
(log 43); unsafe. -/
inductive Clause where
  | none
  | withCompute (c : Compute)
  | elseCompute (c : Compute)
deriving DecidableEq, Repr

/-- The end address of a `DO`: absolute, or relative to the `DO` itself (43_program_flow R216). -/
inductive Target where
  | absolute (a : BitVec 24)
  | relative (off : BitVec 24)
deriving DecidableEq, Repr

/-- The instruction terms, in the order of spec/opcode_table.json. I and M registers named with `Fin 8` are the
index within the DAG that the bus chooses (`Ia`, `Mb` on DM, `Ic - 8`, `Md - 8` on PM: 30_encoding R98). -/
inductive Instr where
  /-- Type 1 (R143). -/
  | computeDualMove (c : Compute) (dmDir : Dir) (ia mb : Fin 8) (dreg1 : DReg) (pmDir : Dir) (ic md : Fin 8) (dreg2 : DReg)
  /-- Type 2 (R144). DESIGN CHOICE: `c` may be `none`, and the term then changes nothing (log 43); unsafe. -/
  | ifCompute (cond : CondCode) (c : Compute)
  /-- Type 3a (R145). -/
  | storePostUreg (cond : CondCode) (c : Compute) (bus : Bus) (i m : Fin 8) (u : UReg)
  /-- Type 3b (R146). -/
  | storePreUreg (cond : CondCode) (c : Compute) (bus : Bus) (i m : Fin 8) (u : UReg)
  /-- Type 3c (R147). -/
  | loadPostUreg (cond : CondCode) (c : Compute) (bus : Bus) (i m : Fin 8) (u : UReg)
  /-- Type 3d (R148). -/
  | loadPreUreg (cond : CondCode) (c : Compute) (bus : Bus) (i m : Fin 8) (u : UReg)
  /-- Type 4a (R149). -/
  | storePostData6 (cond : CondCode) (c : Compute) (bus : Bus) (i : Fin 8) (data6 : BitVec 6) (d : DReg)
  /-- Type 4b (R150). -/
  | storePreData6 (cond : CondCode) (c : Compute) (bus : Bus) (i : Fin 8) (data6 : BitVec 6) (d : DReg)
  /-- Type 4c (R151). -/
  | loadPostData6 (cond : CondCode) (c : Compute) (bus : Bus) (i : Fin 8) (data6 : BitVec 6) (d : DReg)
  /-- Type 4d (R152). -/
  | loadPreData6 (cond : CondCode) (c : Compute) (bus : Bus) (i : Fin 8) (data6 : BitVec 6) (d : DReg)
  /-- Type 5 (R153). -/
  | moveUreg (cond : CondCode) (c : Compute) (u1 u2 : UReg)
  /-- Type 6a (R154). -/
  | shiftStorePost (cond : CondCode) (sh : Compute) (bus : Bus) (i m : Fin 8) (d : DReg)
  /-- Type 6b (R155). -/
  | shiftLoadPost (cond : CondCode) (sh : Compute) (bus : Bus) (i m : Fin 8) (d : DReg)
  /-- Type 7 (R156). -/
  | modifyReg (cond : CondCode) (c : Compute) (i m : Fin 16)
  /-- Type 14a (R170). -/
  | storeDirect (bus : Bus) (addr : Word) (u : UReg)
  /-- Type 14b (R171). -/
  | loadDirect (bus : Bus) (addr : Word) (u : UReg)
  /-- Type 15a (R172). -/
  | storePreData32 (bus : Bus) (i : Fin 8) (data : Word) (u : UReg)
  /-- Type 15b (R173). -/
  | loadPreData32 (bus : Bus) (i : Fin 8) (data : Word) (u : UReg)
  /-- Type 16 (R174). -/
  | storePostImm (bus : Bus) (i m : Fin 8) (data : Word)
  /-- Type 17 (R175). -/
  | loadImm (u : UReg) (data : Word)
  /-- Type 19 (R182). -/
  | modifyImm (i : Fin 16) (data : Word)
  /-- Type 19a (R183). -/
  | bitrev (i : Fin 16) (data : Word)
  /-- `JUMP <addr24>` (R204). -/
  | jumpDirect (cond : CondCode) (addr : PAddr) (db la ci : Bool)
  /-- `JUMP (PC,<reladdr24>)` (R205). -/
  | jumpRel (cond : CondCode) (off : BitVec 24) (db la ci : Bool)
  /-- `CALL <addr24>` (R206). -/
  | callDirect (cond : CondCode) (addr : PAddr) (db : Bool)
  /-- `CALL (PC,<reladdr24>)` (R207). -/
  | callRel (cond : CondCode) (off : BitVec 24) (db : Bool)
  /-- `JUMP (Md,Ic)` (R208). -/
  | jumpInd (cond : CondCode) (md ic : Fin 8) (db la ci : Bool) (clause : Clause)
  /-- `JUMP (PC,<reladdr6>)` (R209). -/
  | jumpShort (cond : CondCode) (off : BitVec 6) (db la ci : Bool) (clause : Clause)
  /-- `CALL (Md,Ic)` (R210). -/
  | callInd (cond : CondCode) (md ic : Fin 8) (db : Bool) (clause : Clause)
  /-- `CALL (PC,<reladdr6>)` (R211). -/
  | callShort (cond : CondCode) (off : BitVec 6) (db : Bool) (clause : Clause)
  /-- `JUMP (Md,Ic), ELSE compute, move` (R212). -/
  | jumpIndMove (cond : CondCode) (md ic : Fin 8) (c : Compute) (dir : Dir) (ia mb : Fin 8) (d : DReg)
  /-- `JUMP (PC,<reladdr6>), ELSE compute, move` (R213). -/
  | jumpShortMove (cond : CondCode) (off : BitVec 6) (c : Compute) (dir : Dir) (ia mb : Fin 8) (d : DReg)
  /-- `RTS` (R214). -/
  | rts (cond : CondCode) (db lr : Bool) (clause : Clause)
  /-- `RTI` (R215). -/
  | rti (cond : CondCode) (db : Bool) (clause : Clause)
  /-- `LCNTR = <data16>, DO … UNTIL LCE` (R216). -/
  | doCountImm (count : BitVec 16) (target : Target)
  /-- `LCNTR = ureg, DO … UNTIL LCE` (R217). -/
  | doCountUreg (u : UReg) (target : Target)
  /-- `DO … UNTIL termination` (R218). -/
  | doUntil (target : Target) (term : CondCode)
  /-- `NOP` (R221). -/
  | nop
  /-- `IDLE` (R222). -/
  | idle
  /-- `BIT SET` (R231). -/
  | bitSet (r : SReg) (data : Word)
  /-- `BIT CLR` (R232). -/
  | bitClr (r : SReg) (data : Word)
  /-- `BIT TGL` (R233). -/
  | bitTgl (r : SReg) (data : Word)
  /-- `BIT TST` (R234). -/
  | bitTst (r : SReg) (data : Word)
  /-- `BIT XOR` (R235). -/
  | bitXor (r : SReg) (data : Word)
  /-- `PUSH STS` (R240). -/
  | pushSts
  /-- `POP STS` (R241). -/
  | popSts
deriving DecidableEq, Repr

end Sys2Proof
end

