-- ==== Sys2Proof/Config.lean ====
section
/-! DEFINITION. What the spec leaves open: the free values (opaque constants with no body, spec/00_scope.md R4 and
spec/92_eei_decisions.md), and the sizes an implementation fixes (spec/00_scope.md R3). -/

namespace Sys2Proof.Config

/-- PC stack depth (10_state R30). -/
def pcStackDepth : Nat := 30

/-- Loop stack depth (10_state R31). -/
def loopStackDepth : Nat := 6

/-- Status stack depth (10_state R32). -/
def statusStackDepth : Nat := 15

/-- Free (30_encoding R91, D2, the parameter Encode): the 48-bit word of each term number. A bijection, so that distinct
terms have distinct words; every injective `Encode` is the numbering of Sys2Proof/Decode.lean followed by one (log 1). -/
opaque wordCode : Equiv.Perm IWord

/-- Whether an operation stands in a `compute` or in a `shiftimm` slot (41_compute_move R141). -/
inductive Slot where
  | compute
  | shiftimm
deriving DecidableEq, Repr

/-- All that `Compute` may read (41_compute_move R141): the data registers, MR, ASTAT, and of MODE1 the bits ALUSAT,
TRUNC, RND32 and SRCU. -/
structure ComputeInput where
  regs : Vector Word 16
  mr : MrWord
  astat : Word
  alusat : Bool
  trunc : Bool
  rnd32 : Bool
  srcu : Bool
deriving DecidableEq, Repr

/-- Free (41_compute_move R141, D16): the value an operation writes to its result register `d`. -/
opaque computeValue : Slot → Compute → ComputeInput → DReg → Word

/-- Free (R141, D16): the value of MR after an operation. -/
opaque computeMr : Slot → Compute → ComputeInput → MrWord

/-- Free (R141, D16): ASTAT's arithmetic flags after an operation; only those bits are used. -/
opaque computeFlags : Slot → Compute → ComputeInput → Word

/-- Free (60_exceptions R296, D16): which of FIXI, FLTOI, FLTUI, FLTII (bits 0 to 3) an operation latches. -/
opaque computeLatches : Slot → Compute → ComputeInput → BitVec 4

/-- Free (10_state R36, D15): the truth of a condition code that the spec does not fix, from ASTAT and MODE1. -/
opaque condEval : CondCode → Word → Word → Bool

/-- Free (43_program_flow R218, D25, LoopTestPoint): the truth of a loop termination at the evaluation point that the
spec leaves open, at the `n`-th step. -/
opaque loopTest : CondCode → Nat → Bool

/-- Free (60_exceptions R281, D32, TicksPerStep): the instruction cycles of the `n`-th step beyond the first. -/
opaque extraCycles : Nat → Nat

/-- Free (60_exceptions R262, D31): how many core steps an interrupt that became takeable at the `n`-th step waits. -/
opaque irqDelay : Nat → Nat

/-- Free (20_memory R74): a `shared` word that nothing in the model has written, read at the `n`-th step; one value on both
buses, since both name the one word (R61, R76). -/
opaque sharedWord : Nat → Word → Word

/-- Free (20_memory R69, D43): what a device that the launch serves answers to a read at the `n`-th step; a read on each
bus may answer its own, since a device may have side effects (R69, log 16). -/
opaque deviceWord : Nat → Bus → Word → Word

/-- Free (10_state R33, R40, N32): what LADDR reads as, of the top loop-stack entry (end address, termination, count) or an
empty loop stack, whose packing the spec does not give, and of the word that was last written to LADDR (log 18). -/
opaque laddrWord : Option (PAddr × CondCode × Word) → Word → Word

/-- Free (60_exceptions R266): the mask-pointer bits of LIRPTL at the `n`-th step, where an interrupt is in service. -/
opaque maskPointers : Nat → BitVec 4

end Sys2Proof.Config
end

