-- ==== Sys2Proof/WellFormed.lean ====
section
/-! DEFINITION. Which terms are instructions: the register constraints of spec/30_encoding.md R98, the overlaps that
spec/40_dag_addressing.md R123 refuses, the admitted register classes of spec/10_state.md R40 and R41. A term that
breaks one is refused before it reaches the machine (30_encoding R96). -/

namespace Sys2Proof

/-- The constraint that an ill-formed term breaks. -/
inductive IllFormed where
  /-- LCE stands after IF: it is only legal as a DO termination (10_state R36). -/
  | lceAsCondition
  /-- A termination that `DO … UNTIL` alone does not take: LCE goes with LCNTR (43_program_flow R218, log 39). -/
  | termination
  /-- A universal register outside the admitted set (10_state R40, D41). -/
  | uregNotAdmitted
  /-- A system register outside the admitted set (10_state R41, D41). -/
  | sregNotAdmitted
  /-- One register written twice by one term (40_dag_addressing R123). -/
  | twoWrites
  /-- An operation with a set of result registers that is empty: such an operation is `quiet` or none (log 2). -/
  | noResult
  /-- A move of a register of the DAG that makes the move's address (40_dag_addressing R123). -/
  | uregOfAddressingDag
  /-- An I register of one DAG with an M register of the other (30_encoding R98). -/
  | mixedDags
  /-- LA and CI together: no template has them (43_program_flow R203). -/
  | branchModifiers
deriving DecidableEq, Repr

/-- A universal register that an instruction may name, as a source or a destination (10_state R40, D41; LADDR: log 18). -/
def UReg.readable : UReg → Bool
  | .r _ | .i _ | .m _ | .l _ | .b _ => true
  | .tcount | .tperiod | .lcntr | .laddr => true
  | .mode1 | .mode2 | .mmask | .astat | .irptl | .imask | .lirptl | .ustat1 => true
  | .pc | .pcstk | .pcstkp | .faddr | .daddr | .curlcntr | .ustat2 | .ustat3 | .ustat4 => false
  | .flags | .stky | .imaskp | .px | .px1 | .px2 | .s _ => false

/-- A system register that `BIT` may name (10_state R41, D41). -/
def SReg.admitted : SReg → Bool
  | .mode1 | .mode2 | .astat | .imask | .irptl | .lirptl | .mmask | .ustat1 => true
  | .flags | .imaskp | .stky | .ustat2 | .ustat3 | .ustat4 => false

/-- The register is an I, M, L or B register of the DAG that serves the bus (20_memory R65). -/
def UReg.ofDag (bus : Bus) : UReg → Bool
  | .i n | .m n | .l n | .b n => match bus with
    | .dm => n.val < 8
    | .pm => 8 ≤ n.val
  | _ => false

/-- The register is one of the given data registers. -/
def UReg.amongDregs (ds : List DReg) : UReg → Bool
  | .r n => ds.contains n
  | _ => false

/-- `some e` when the condition holds: the term breaks the constraint `e`. -/
def broken (b : Bool) (e : IllFormed) : Option IllFormed := if b then some e else none

/-- The first constraint broken, if any. -/
def firstOf : List (Option IllFormed) → Option IllFormed
  | [] => none
  | some e :: _ => some e
  | none :: rest => firstOf rest

def checkCond (c : CondCode) : Option IllFormed := broken (c == .lce) .lceAsCondition

/-- The constraints on an operation of any slot. `none` passes in each: an omitted `compute` of a multifunction template is
`none` (30_encoding R92); in the slots that log 43 lists it is the model's choice. -/
def checkCompute : Compute → Option IllFormed
  | .double _ d1 d2 => broken (d1 == d2) .twoWrites
  | .multi _ set => broken (set == 0) .noResult
  | .none | .quiet _ | .single _ _ => none

def checkClause : Clause → Option IllFormed
  | .none => none
  | .withCompute c | .elseCompute c => checkCompute c

/-- Any `ureg` slot may name any admitted register, and no other (10_state R40). -/
def checkUreg (u : UReg) : Option IllFormed := broken (!u.readable) .uregNotAdmitted

def checkDag (bus : Bus) (u : UReg) : Option IllFormed := broken (u.ofDag bus) .uregOfAddressingDag

/-- A register loaded beside an operation is not one that the operation writes (40_dag_addressing R123). -/
def checkLoad (c : Compute) (u : UReg) : Option IllFormed := broken (u.amongDregs c.dests) .twoWrites

def checkJump (la ci : Bool) : Option IllFormed := broken (la && ci) .branchModifiers

def checkSreg (r : SReg) : Option IllFormed := broken (!r.admitted) .sregNotAdmitted

/-- The constraint that a term breaks, if any. DESIGN CHOICE: a type 2 term (41_compute_move R144), a type 6b term, a branch
clause and an `ELSE` part may hold the operation `none`, where 30_encoding R92 has it in multifunction templates (log 43);
unsafe. -/
def Instr.illFormed : Instr → Option IllFormed
  | .computeDualMove c dmDir _ _ d1 pmDir _ _ d2 => firstOf
      [ checkCompute c,
        broken (dmDir == .load && pmDir == .load && d1 == d2) .twoWrites,
        broken (dmDir == .load && c.dests.contains d1) .twoWrites,
        broken (pmDir == .load && c.dests.contains d2) .twoWrites ]
  | .ifCompute cond c => firstOf [checkCond cond, checkCompute c]
  | .storePostUreg cond c bus _ _ u => firstOf [checkCond cond, checkCompute c, checkUreg u, checkDag bus u]
  | .storePreUreg cond c bus _ _ u => firstOf [checkCond cond, checkCompute c, checkUreg u, checkDag bus u]
  | .loadPostUreg cond c bus _ _ u =>
      firstOf [checkCond cond, checkCompute c, checkUreg u, checkDag bus u, checkLoad c u]
  | .loadPreUreg cond c bus _ _ u =>
      firstOf [checkCond cond, checkCompute c, checkUreg u, checkDag bus u, checkLoad c u]
  | .storePostData6 cond c _ _ _ _ => firstOf [checkCond cond, checkCompute c]
  | .storePreData6 cond c _ _ _ _ => firstOf [checkCond cond, checkCompute c]
  | .loadPostData6 cond c _ _ _ d => firstOf [checkCond cond, checkCompute c, checkLoad c (.r d)]
  | .loadPreData6 cond c _ _ _ d => firstOf [checkCond cond, checkCompute c, checkLoad c (.r d)]
  | .moveUreg cond c u1 u2 => firstOf [checkCond cond, checkCompute c, checkUreg u2, checkUreg u1, checkLoad c u1]
  | .shiftStorePost cond sh _ _ _ _ => firstOf [checkCond cond, checkCompute sh]
  | .shiftLoadPost cond sh _ _ _ d => firstOf [checkCond cond, checkCompute sh, checkLoad sh (.r d)]
  | .modifyReg cond c i m =>
      firstOf [checkCond cond, checkCompute c, broken (decide (i.val < 8) != decide (m.val < 8)) .mixedDags]
  | .storeDirect _ _ u => checkUreg u
  | .loadDirect _ _ u => checkUreg u
  | .storePreData32 bus _ _ u => firstOf [checkUreg u, checkDag bus u]
  | .loadPreData32 bus _ _ u => firstOf [checkUreg u, checkDag bus u]
  | .storePostImm _ _ _ _ => none
  | .loadImm u _ => checkUreg u
  | .modifyImm _ _ => none
  | .bitrev _ _ => none
  | .jumpDirect cond _ _ la ci => firstOf [checkCond cond, checkJump la ci]
  | .jumpRel cond _ _ la ci => firstOf [checkCond cond, checkJump la ci]
  | .callDirect cond _ _ => checkCond cond
  | .callRel cond _ _ => checkCond cond
  | .jumpInd cond _ _ _ la ci clause => firstOf [checkCond cond, checkJump la ci, checkClause clause]
  | .jumpShort cond _ _ la ci clause => firstOf [checkCond cond, checkJump la ci, checkClause clause]
  | .callInd cond _ _ _ clause => firstOf [checkCond cond, checkClause clause]
  | .callShort cond _ _ clause => firstOf [checkCond cond, checkClause clause]
  | .jumpIndMove cond _ _ c dir _ _ d =>
      firstOf [checkCond cond, checkCompute c, broken (dir == .load && c.dests.contains d) .twoWrites]
  | .jumpShortMove cond _ c dir _ _ d =>
      firstOf [checkCond cond, checkCompute c, broken (dir == .load && c.dests.contains d) .twoWrites]
  | .rts cond _ _ clause => firstOf [checkCond cond, checkClause clause]
  | .rti cond _ clause => firstOf [checkCond cond, checkClause clause]
  | .doCountImm _ _ => none
  | .doCountUreg u _ => checkUreg u
  | .doUntil _ term => broken (term == .lce || term == .notLce) .termination
  | .nop => none
  | .idle => none
  | .bitSet r _ => checkSreg r
  | .bitClr r _ => checkSreg r
  | .bitTgl r _ => checkSreg r
  | .bitTst r _ => checkSreg r
  | .bitXor r _ => checkSreg r
  | .pushSts => none
  | .popSts => none

/-- The term is an instruction of the machine. -/
abbrev Instr.WellFormed (i : Instr) : Prop := i.illFormed = none

end Sys2Proof
end

