-- ==== Sys2Proof/Decode.lean ====
section
/-! DEFINITION. The decoder and the encoder. The spec gives no bit-level encoding (30_encoding R91): the map from terms to
48-bit words is its open parameter `Encode`, of which a model may assume only that it is injective on the admitted
terms. This file numbers the terms, and the word of a term is a free bijection of its number (`Config.wordCode`): nothing
can be proved of a word's bits, and every injective `Encode` is an instance. DESIGN CHOICE (log 1): the numbers, which
are the model's own way of holding a program text and say nothing of the hardware. A term is numbered as fields from
bit 0 upwards: an opening of 3, 6 or 9 bits that names the template, then the term's fields in the order its rule lists
them. -/

namespace Sys2Proof

/-! ### Fields -/

/-- A field of a word: its width in bits and its value. -/
abbrev Field := Nat × Nat

/-- Fields from the least significant bit upwards. -/
def pack : List Field → Nat
  | [] => 0
  | (w, v) :: fs => v % 2 ^ w + 2 ^ w * pack fs

/-- Reads fields from the least significant bit upwards. -/
abbrev Reader := StateT Nat Option

def readBits (w : Nat) : Reader Nat := fun n => some (n % 2 ^ w, n / 2 ^ w)

def readImm (w : Nat) : Reader (BitVec w) := fun n => some (BitVec.ofNat w n, n / 2 ^ w)

def readImm6 : Reader (BitVec 6) := readImm 6
def readImm16 : Reader (BitVec 16) := readImm 16
def readImm24 : Reader (BitVec 24) := readImm 24
def readImm32 : Reader (BitVec 32) := readImm 32

def imm6Bits (v : BitVec 6) : List Field := [(6, v.toNat)]
def imm16Bits (v : BitVec 16) : List Field := [(16, v.toNat)]
def imm24Bits (v : BitVec 24) : List Field := [(24, v.toNat)]
def imm32Bits (v : BitVec 32) : List Field := [(32, v.toNat)]

def readIdx8 : Reader (Fin 8) := fun n => some (Fin.ofNat 8 n, n / 2 ^ 3)
def idx8Bits (v : Fin 8) : List Field := [(3, v.val)]

def readIdx16 : Reader (Fin 16) := fun n => some (Fin.ofNat 16 n, n / 2 ^ 4)
def idx16Bits (v : Fin 16) : List Field := [(4, v.val)]

def readFlag : Reader Bool := fun n => some (n % 2 == 1, n / 2 ^ 1)
def flagBits (v : Bool) : List Field := [(1, v.toNat)]

def readBus : Reader Bus := fun n => some (if n % 2 = 1 then .pm else .dm, n / 2 ^ 1)
def Bus.number : Bus → Nat
  | .dm => 0
  | .pm => 1
def busBits (v : Bus) : List Field := [(1, v.number)]

def readDir : Reader Dir := fun n => some (if n % 2 = 1 then .load else .store, n / 2 ^ 1)
def Dir.number : Dir → Nat
  | .store => 0
  | .load => 1
def dirBits (v : Dir) : List Field := [(1, v.number)]

/-! ### Condition codes, register names, operations -/

/-- The 5-bit number of a condition code; number 15 is `NOT LCE` after IF and `LCE` after UNTIL (log 39). -/
def CondCode.number : CondCode → Nat
  | .eq => 0 | .lt => 1 | .le => 2 | .ac => 3 | .av => 4 | .mv => 5 | .ms => 6 | .sv => 7 | .sz => 8
  | .flag0 => 9 | .flag1 => 10 | .flag2 => 11 | .flag3 => 12 | .tf => 13 | .bm => 14
  | .lce => 15 | .notLce => 15
  | .ne => 16 | .ge => 17 | .gt => 18 | .notAc => 19 | .notAv => 20 | .notMv => 21 | .notMs => 22 | .notSv => 23
  | .notSz => 24 | .notFlag0 => 25 | .notFlag1 => 26 | .notFlag2 => 27 | .notFlag3 => 28 | .notTf => 29 | .nbm => 30
  | .always => 31

/-- The condition code of a number, `shared` being the code with number 15. -/
def CondCode.ofNumber (shared : CondCode) : Nat → CondCode
  | 0 => .eq | 1 => .lt | 2 => .le | 3 => .ac | 4 => .av | 5 => .mv | 6 => .ms | 7 => .sv | 8 => .sz
  | 9 => .flag0 | 10 => .flag1 | 11 => .flag2 | 12 => .flag3 | 13 => .tf | 14 => .bm
  | 15 => shared
  | 16 => .ne | 17 => .ge | 18 => .gt | 19 => .notAc | 20 => .notAv | 21 => .notMv | 22 => .notMs | 23 => .notSv
  | 24 => .notSz | 25 => .notFlag0 | 26 => .notFlag1 | 27 => .notFlag2 | 28 => .notFlag3 | 29 => .notTf | 30 => .nbm
  | _ => .always

def readCond : Reader CondCode := fun n => some (.ofNumber .notLce (n % 2 ^ 5), n / 2 ^ 5)
def condBits (c : CondCode) : List Field := [(5, c.number)]

def readTerm : Reader CondCode := fun n => some (.ofNumber .lce (n % 2 ^ 5), n / 2 ^ 5)
def termBits (c : CondCode) : List Field := [(5, c.number)]

/-- The universal registers that are not one of sixteen, by number from 96 on. -/
def UReg.singles : List UReg :=
  [.tcount, .tperiod, .lcntr, .laddr, .mode1, .mode2, .mmask, .astat, .irptl, .imask, .lirptl, .ustat1,
   .pc, .pcstk, .pcstkp, .faddr, .daddr, .curlcntr, .ustat2, .ustat3, .ustat4, .flags, .stky, .imaskp, .px, .px1, .px2]

/-- The 7-bit number of a universal register: group of sixteen, then the place in it. -/
def UReg.number : UReg → Nat
  | .r n => n.val
  | .i n => 16 + n.val
  | .m n => 32 + n.val
  | .l n => 48 + n.val
  | .b n => 64 + n.val
  | .s n => 80 + n.val
  | .tcount => 96 | .tperiod => 97 | .lcntr => 98 | .laddr => 99 | .mode1 => 100 | .mode2 => 101 | .mmask => 102
  | .astat => 103 | .irptl => 104 | .imask => 105 | .lirptl => 106 | .ustat1 => 107
  | .pc => 108 | .pcstk => 109 | .pcstkp => 110 | .faddr => 111 | .daddr => 112 | .curlcntr => 113
  | .ustat2 => 114 | .ustat3 => 115 | .ustat4 => 116 | .flags => 117 | .stky => 118 | .imaskp => 119
  | .px => 120 | .px1 => 121 | .px2 => 122

def UReg.ofNumber (n : Nat) : Option UReg :=
  match n / 16 with
  | 0 => some (.r (Fin.ofNat 16 n))
  | 1 => some (.i (Fin.ofNat 16 n))
  | 2 => some (.m (Fin.ofNat 16 n))
  | 3 => some (.l (Fin.ofNat 16 n))
  | 4 => some (.b (Fin.ofNat 16 n))
  | 5 => some (.s (Fin.ofNat 16 n))
  | _ => UReg.singles[n - 96]?

def readUreg : Reader UReg := fun n => (UReg.ofNumber (n % 2 ^ 7)).map (·, n / 2 ^ 7)
def uregBits (u : UReg) : List Field := [(7, u.number)]

def SReg.number : SReg → Nat
  | .mode1 => 0 | .mode2 => 1 | .astat => 2 | .imask => 3 | .irptl => 4 | .lirptl => 5 | .mmask => 6 | .ustat1 => 7
  | .flags => 8 | .imaskp => 9 | .stky => 10 | .ustat2 => 11 | .ustat3 => 12 | .ustat4 => 13

def SReg.ofNumber (n : Nat) : Option SReg :=
  [SReg.mode1, .mode2, .astat, .imask, .irptl, .lirptl, .mmask, .ustat1, .flags, .imaskp, .stky, .ustat2, .ustat3,
   .ustat4][n]?

def readSreg : Reader SReg := fun n => (SReg.ofNumber (n % 2 ^ 4)).map (·, n / 2 ^ 4)
def sregBits (r : SReg) : List Field := [(4, r.number)]

/-- The kind of an operation term: none or a set of result registers, or the number of its result registers plus one. -/
def Compute.kind : Compute → Nat
  | .none => 0
  | .quiet _ => 1
  | .single _ _ => 2
  | .double _ _ _ => 3
  | .multi _ _ => 0

/-- The 21 bits of an operation term: its code, then its result registers. -/
def Compute.body : Compute → Nat
  | .none => 0
  | .quiet code => code.toNat
  | .single code d => code.toNat + 2 ^ 13 * d.val
  | .double code d1 d2 => code.toNat + 2 ^ 13 * d1.val + 2 ^ 17 * d2.val
  | .multi code set => code.toNat + 2 ^ 5 * set.toNat

/-- The operation term of a kind and its 21 bits. -/
def Compute.ofBody (kind body : Nat) : Compute :=
  match kind with
  | 0 => if body = 0 then .none else .multi (BitVec.ofNat 5 body) (BitVec.ofNat 16 (body / 2 ^ 5))
  | 1 => .quiet (BitVec.ofNat 13 body)
  | 2 => .single (BitVec.ofNat 13 body) (Fin.ofNat 16 (body / 2 ^ 13))
  | _ => .double (BitVec.ofNat 13 body) (Fin.ofNat 16 (body / 2 ^ 13)) (Fin.ofNat 16 (body / 2 ^ 17))

def readCompute : Reader Compute := do
  let kind ← readBits 2
  let body ← readBits 21
  return .ofBody kind body

def computeBits (c : Compute) : List Field := [(2, c.kind), (21, c.body)]

def readClause : Reader Clause := do
  let kind ← readBits 2
  let c ← readCompute
  return match kind with
    | 0 => .none
    | 1 => .withCompute c
    | _ => .elseCompute c

def Clause.kind : Clause → Nat
  | .none => 0
  | .withCompute _ => 1
  | .elseCompute _ => 2

/-- The operation that a clause holds. -/
def Clause.operation : Clause → Compute
  | .none => .none
  | .withCompute c => c
  | .elseCompute c => c

def clauseBits (cl : Clause) : List Field := (2, cl.kind) :: computeBits cl.operation

def readTarget : Reader Target := do
  let rel ← readFlag
  let a ← readImm 24
  return if rel then .relative a else .absolute a

def Target.isRelative : Target → Bool
  | .absolute _ => false
  | .relative _ => true

def Target.field : Target → BitVec 24
  | .absolute a => a
  | .relative a => a

def targetBits (t : Target) : List Field := [(1, t.isRelative.toNat), (24, t.field.toNat)]

/-! ### Terms -/

/-- The terms under the opening 5. -/
def readFamily5 : Nat → Reader Instr
  | 0 => do
      let cond ← readCond
      let c ← readCompute
      let bus ← readBus
      let i ← readIdx8
      let m ← readIdx8
      let u ← readUreg
      return .storePostUreg cond c bus i m u
  | 1 => do
      let cond ← readCond
      let c ← readCompute
      let bus ← readBus
      let i ← readIdx8
      let m ← readIdx8
      let u ← readUreg
      return .storePreUreg cond c bus i m u
  | 2 => do
      let cond ← readCond
      let c ← readCompute
      let bus ← readBus
      let i ← readIdx8
      let m ← readIdx8
      let u ← readUreg
      return .loadPostUreg cond c bus i m u
  | 3 => do
      let cond ← readCond
      let c ← readCompute
      let bus ← readBus
      let i ← readIdx8
      let m ← readIdx8
      let u ← readUreg
      return .loadPreUreg cond c bus i m u
  | 4 => do
      let cond ← readCond
      let c ← readCompute
      let bus ← readBus
      let i ← readIdx8
      let data6 ← readImm6
      let d ← readIdx16
      return .storePostData6 cond c bus i data6 d
  | 5 => do
      let cond ← readCond
      let c ← readCompute
      let bus ← readBus
      let i ← readIdx8
      let data6 ← readImm6
      let d ← readIdx16
      return .storePreData6 cond c bus i data6 d
  | 6 => do
      let cond ← readCond
      let c ← readCompute
      let bus ← readBus
      let i ← readIdx8
      let data6 ← readImm6
      let d ← readIdx16
      return .loadPostData6 cond c bus i data6 d
  | 7 => do
      let cond ← readCond
      let c ← readCompute
      let bus ← readBus
      let i ← readIdx8
      let data6 ← readImm6
      let d ← readIdx16
      return .loadPreData6 cond c bus i data6 d
  | _ => failure

/-- The terms under the opening 6. -/
def readFamily6 : Nat → Reader Instr
  | 0 => do
      let cond ← readCond
      let c ← readCompute
      let u1 ← readUreg
      let u2 ← readUreg
      return .moveUreg cond c u1 u2
  | 1 => do
      let count ← readImm16
      let target ← readTarget
      return .doCountImm count target
  | 2 => do
      let bus ← readBus
      let addr ← readImm32
      let u ← readUreg
      return .storeDirect bus addr u
  | 3 => do
      let bus ← readBus
      let addr ← readImm32
      let u ← readUreg
      return .loadDirect bus addr u
  | 4 => do
      let bus ← readBus
      let i ← readIdx8
      let m ← readIdx8
      let data ← readImm32
      return .storePostImm bus i m data
  | 5 => do
      let u ← readUreg
      let data ← readImm32
      return .loadImm u data
  | _ => failure

/-- The terms under the opening 7. -/
def readFamily7 : Nat → Reader Instr
  | 0 => do
      let cond ← readCond
      let c ← readCompute
      return .ifCompute cond c
  | 1 => do
      let cond ← readCond
      let c ← readCompute
      let bus ← readBus
      let i ← readIdx8
      let m ← readIdx8
      let d ← readIdx16
      return .shiftStorePost cond c bus i m d
  | 2 => do
      let cond ← readCond
      let c ← readCompute
      let bus ← readBus
      let i ← readIdx8
      let m ← readIdx8
      let d ← readIdx16
      return .shiftLoadPost cond c bus i m d
  | 3 => do
      let cond ← readCond
      let c ← readCompute
      let i ← readIdx16
      let m ← readIdx16
      return .modifyReg cond c i m
  | 4 => do
      let i ← readIdx16
      let data ← readImm32
      return .modifyImm i data
  | 5 => do
      let i ← readIdx16
      let data ← readImm32
      return .bitrev i data
  | 6 => do
      let cond ← readCond
      let addr ← readImm24
      let db ← readFlag
      let la ← readFlag
      let ci ← readFlag
      return .jumpDirect cond addr db la ci
  | 7 => do
      let cond ← readCond
      let off ← readImm24
      let db ← readFlag
      let la ← readFlag
      let ci ← readFlag
      return .jumpRel cond off db la ci
  | 8 => do
      let cond ← readCond
      let addr ← readImm24
      let db ← readFlag
      return .callDirect cond addr db
  | 9 => do
      let cond ← readCond
      let off ← readImm24
      let db ← readFlag
      return .callRel cond off db
  | 10 => do
      let cond ← readCond
      let md ← readIdx8
      let ic ← readIdx8
      let db ← readFlag
      let la ← readFlag
      let ci ← readFlag
      let clause ← readClause
      return .jumpInd cond md ic db la ci clause
  | 11 => do
      let cond ← readCond
      let off ← readImm6
      let db ← readFlag
      let la ← readFlag
      let ci ← readFlag
      let clause ← readClause
      return .jumpShort cond off db la ci clause
  | 12 => do
      let cond ← readCond
      let md ← readIdx8
      let ic ← readIdx8
      let db ← readFlag
      let clause ← readClause
      return .callInd cond md ic db clause
  | 13 => do
      let cond ← readCond
      let off ← readImm6
      let db ← readFlag
      let clause ← readClause
      return .callShort cond off db clause
  | 14 => do
      let cond ← readCond
      let db ← readFlag
      let lr ← readFlag
      let clause ← readClause
      return .rts cond db lr clause
  | 15 => do
      let cond ← readCond
      let db ← readFlag
      let clause ← readClause
      return .rti cond db clause
  | 16 => do
      let u ← readUreg
      let target ← readTarget
      return .doCountUreg u target
  | 17 => do
      let target ← readTarget
      let term ← readTerm
      return .doUntil target term
  | 18 => pure .nop
  | 19 => pure .idle
  | 20 => do
      let r ← readSreg
      let data ← readImm32
      return .bitSet r data
  | 21 => do
      let r ← readSreg
      let data ← readImm32
      return .bitClr r data
  | 22 => do
      let r ← readSreg
      let data ← readImm32
      return .bitTgl r data
  | 23 => do
      let r ← readSreg
      let data ← readImm32
      return .bitTst r data
  | 24 => do
      let r ← readSreg
      let data ← readImm32
      return .bitXor r data
  | 25 => pure .pushSts
  | 26 => pure .popSts
  | _ => failure

/-- One term, its opening first. -/
def readInstr : Reader Instr := do
  let opening ← readBits 3
  match opening with
  | 0 => do
      let c ← readCompute
      let dmDir ← readDir
      let ia ← readIdx8
      let mb ← readIdx8
      let d1 ← readIdx16
      let pmDir ← readDir
      let ic ← readIdx8
      let md ← readIdx8
      let d2 ← readIdx16
      return .computeDualMove c dmDir ia mb d1 pmDir ic md d2
  | 1 => do
      let cond ← readCond
      let md ← readIdx8
      let ic ← readIdx8
      let c ← readCompute
      let dir ← readDir
      let ia ← readIdx8
      let mb ← readIdx8
      let d ← readIdx16
      return .jumpIndMove cond md ic c dir ia mb d
  | 2 => do
      let cond ← readCond
      let off ← readImm6
      let c ← readCompute
      let dir ← readDir
      let ia ← readIdx8
      let mb ← readIdx8
      let d ← readIdx16
      return .jumpShortMove cond off c dir ia mb d
  | 3 => do
      let bus ← readBus
      let i ← readIdx8
      let data ← readImm32
      let u ← readUreg
      return .storePreData32 bus i data u
  | 4 => do
      let bus ← readBus
      let i ← readIdx8
      let data ← readImm32
      let u ← readUreg
      return .loadPreData32 bus i data u
  | 5 => do readFamily5 (← readBits 3)
  | 6 => do readFamily6 (← readBits 3)
  | 7 => do readFamily7 (← readBits 6)
  | _ => failure

/-- The fields of a term, from bit 0 upwards. -/
def Instr.fields : Instr → List Field
  | .computeDualMove c dmDir ia mb d1 pmDir ic md d2 => [(3, 0)] ++ computeBits c ++ dirBits dmDir ++ idx8Bits ia ++ idx8Bits mb ++ idx16Bits d1 ++ dirBits pmDir ++ idx8Bits ic ++ idx8Bits md ++ idx16Bits d2
  | .jumpIndMove cond md ic c dir ia mb d => [(3, 1)] ++ condBits cond ++ idx8Bits md ++ idx8Bits ic ++ computeBits c ++ dirBits dir ++ idx8Bits ia ++ idx8Bits mb ++ idx16Bits d
  | .jumpShortMove cond off c dir ia mb d => [(3, 2)] ++ condBits cond ++ imm6Bits off ++ computeBits c ++ dirBits dir ++ idx8Bits ia ++ idx8Bits mb ++ idx16Bits d
  | .storePreData32 bus i data u => [(3, 3)] ++ busBits bus ++ idx8Bits i ++ imm32Bits data ++ uregBits u
  | .loadPreData32 bus i data u => [(3, 4)] ++ busBits bus ++ idx8Bits i ++ imm32Bits data ++ uregBits u
  | .storePostUreg cond c bus i m u => [(3, 5), (3, 0)] ++ condBits cond ++ computeBits c ++ busBits bus ++ idx8Bits i ++ idx8Bits m ++ uregBits u
  | .storePreUreg cond c bus i m u => [(3, 5), (3, 1)] ++ condBits cond ++ computeBits c ++ busBits bus ++ idx8Bits i ++ idx8Bits m ++ uregBits u
  | .loadPostUreg cond c bus i m u => [(3, 5), (3, 2)] ++ condBits cond ++ computeBits c ++ busBits bus ++ idx8Bits i ++ idx8Bits m ++ uregBits u
  | .loadPreUreg cond c bus i m u => [(3, 5), (3, 3)] ++ condBits cond ++ computeBits c ++ busBits bus ++ idx8Bits i ++ idx8Bits m ++ uregBits u
  | .storePostData6 cond c bus i data6 d => [(3, 5), (3, 4)] ++ condBits cond ++ computeBits c ++ busBits bus ++ idx8Bits i ++ imm6Bits data6 ++ idx16Bits d
  | .storePreData6 cond c bus i data6 d => [(3, 5), (3, 5)] ++ condBits cond ++ computeBits c ++ busBits bus ++ idx8Bits i ++ imm6Bits data6 ++ idx16Bits d
  | .loadPostData6 cond c bus i data6 d => [(3, 5), (3, 6)] ++ condBits cond ++ computeBits c ++ busBits bus ++ idx8Bits i ++ imm6Bits data6 ++ idx16Bits d
  | .loadPreData6 cond c bus i data6 d => [(3, 5), (3, 7)] ++ condBits cond ++ computeBits c ++ busBits bus ++ idx8Bits i ++ imm6Bits data6 ++ idx16Bits d
  | .moveUreg cond c u1 u2 => [(3, 6), (3, 0)] ++ condBits cond ++ computeBits c ++ uregBits u1 ++ uregBits u2
  | .doCountImm count target => [(3, 6), (3, 1)] ++ imm16Bits count ++ targetBits target
  | .storeDirect bus addr u => [(3, 6), (3, 2)] ++ busBits bus ++ imm32Bits addr ++ uregBits u
  | .loadDirect bus addr u => [(3, 6), (3, 3)] ++ busBits bus ++ imm32Bits addr ++ uregBits u
  | .storePostImm bus i m data => [(3, 6), (3, 4)] ++ busBits bus ++ idx8Bits i ++ idx8Bits m ++ imm32Bits data
  | .loadImm u data => [(3, 6), (3, 5)] ++ uregBits u ++ imm32Bits data
  | .ifCompute cond c => [(3, 7), (6, 0)] ++ condBits cond ++ computeBits c
  | .shiftStorePost cond c bus i m d => [(3, 7), (6, 1)] ++ condBits cond ++ computeBits c ++ busBits bus ++ idx8Bits i ++ idx8Bits m ++ idx16Bits d
  | .shiftLoadPost cond c bus i m d => [(3, 7), (6, 2)] ++ condBits cond ++ computeBits c ++ busBits bus ++ idx8Bits i ++ idx8Bits m ++ idx16Bits d
  | .modifyReg cond c i m => [(3, 7), (6, 3)] ++ condBits cond ++ computeBits c ++ idx16Bits i ++ idx16Bits m
  | .modifyImm i data => [(3, 7), (6, 4)] ++ idx16Bits i ++ imm32Bits data
  | .bitrev i data => [(3, 7), (6, 5)] ++ idx16Bits i ++ imm32Bits data
  | .jumpDirect cond addr db la ci => [(3, 7), (6, 6)] ++ condBits cond ++ imm24Bits addr ++ flagBits db ++ flagBits la ++ flagBits ci
  | .jumpRel cond off db la ci => [(3, 7), (6, 7)] ++ condBits cond ++ imm24Bits off ++ flagBits db ++ flagBits la ++ flagBits ci
  | .callDirect cond addr db => [(3, 7), (6, 8)] ++ condBits cond ++ imm24Bits addr ++ flagBits db
  | .callRel cond off db => [(3, 7), (6, 9)] ++ condBits cond ++ imm24Bits off ++ flagBits db
  | .jumpInd cond md ic db la ci clause => [(3, 7), (6, 10)] ++ condBits cond ++ idx8Bits md ++ idx8Bits ic ++ flagBits db ++ flagBits la ++ flagBits ci ++ clauseBits clause
  | .jumpShort cond off db la ci clause => [(3, 7), (6, 11)] ++ condBits cond ++ imm6Bits off ++ flagBits db ++ flagBits la ++ flagBits ci ++ clauseBits clause
  | .callInd cond md ic db clause => [(3, 7), (6, 12)] ++ condBits cond ++ idx8Bits md ++ idx8Bits ic ++ flagBits db ++ clauseBits clause
  | .callShort cond off db clause => [(3, 7), (6, 13)] ++ condBits cond ++ imm6Bits off ++ flagBits db ++ clauseBits clause
  | .rts cond db lr clause => [(3, 7), (6, 14)] ++ condBits cond ++ flagBits db ++ flagBits lr ++ clauseBits clause
  | .rti cond db clause => [(3, 7), (6, 15)] ++ condBits cond ++ flagBits db ++ clauseBits clause
  | .doCountUreg u target => [(3, 7), (6, 16)] ++ uregBits u ++ targetBits target
  | .doUntil target term => [(3, 7), (6, 17)] ++ targetBits target ++ termBits term
  | .nop => [(3, 7), (6, 18)]
  | .idle => [(3, 7), (6, 19)]
  | .bitSet r data => [(3, 7), (6, 20)] ++ sregBits r ++ imm32Bits data
  | .bitClr r data => [(3, 7), (6, 21)] ++ sregBits r ++ imm32Bits data
  | .bitTgl r data => [(3, 7), (6, 22)] ++ sregBits r ++ imm32Bits data
  | .bitTst r data => [(3, 7), (6, 23)] ++ sregBits r ++ imm32Bits data
  | .bitXor r data => [(3, 7), (6, 24)] ++ sregBits r ++ imm32Bits data
  | .pushSts => [(3, 7), (6, 25)]
  | .popSts => [(3, 7), (6, 26)]

/-- The number of a term (log 1). -/
def termNumber (i : Instr) : IWord := BitVec.ofNat 48 (pack i.fields)

/-- The word of a term: the open parameter `Encode` (30_encoding R91, log 1). -/
def encode (i : Instr) : IWord := Config.wordCode (termNumber i)

/-! ### The decoder -/

/-- Why a word, or its number, is no instruction (30_encoding R96). -/
inductive DecodeError where
  /-- No term has this opening, or a register field names no register. -/
  | noTerm
  /-- A term, but not an instruction: the constraint it breaks. -/
  | illFormed (why : IllFormed)
  /-- Bits of the number outside the term's fields are set: `Encode` maps no term to the word. -/
  | notEncoded
  /-- Fewer than six bytes. -/
  | truncated
deriving DecidableEq, Repr

/-- The instruction with a number, total on all numbers. -/
def termOf (n : IWord) : Except DecodeError Instr :=
  match readInstr n.toNat with
  | none => .error .noTerm
  | some (i, _) =>
    match i.illFormed with
    | some why => .error (.illFormed why)
    | none => if termNumber i = n then .ok i else .error .notEncoded

/-- The instruction of a 48-bit word, total on all words: the partial inverse of `Encode` (30_encoding R91, R96). -/
def decode (w : IWord) : Except DecodeError Instr := termOf (Config.wordCode.symm w)

/-- Bytes, least significant first, as one number. DESIGN CHOICE: the order is not observable (20_memory R67, log 5). -/
def joinBytes : List Byte → Nat
  | [] => 0
  | b :: bs => b.toNat + 256 * joinBytes bs

/-- The first instruction of a program text, held as the bytes of its numbers (log 1), and the bytes after it; total on
any bytes. -/
def decodeBytes : List Byte → Except DecodeError (Instr × List Byte)
  | b0 :: b1 :: b2 :: b3 :: b4 :: b5 :: rest =>
    match termOf (BitVec.ofNat 48 (joinBytes [b0, b1, b2, b3, b4, b5])) with
    | .ok i => .ok (i, rest)
    | .error e => .error e
  | _ => .error .truncated

/-- The `n` low bytes of a number, least significant first. -/
def splitBytes : Nat → Nat → List Byte
  | 0, _ => []
  | n + 1, v => BitVec.ofNat 8 v :: splitBytes n (v / 256)

/-- The six bytes of a word, least significant first. -/
def wordBytes (w : IWord) : List Byte := splitBytes 6 w.toNat

/-- The instruction the decoder reads from the bits `w`. The table gives no row any bits (30_encoding R91), so `w` is read
as a number of this file (log 1); a number at or above 2^48 is no instruction's. -/
def decodeTableWord (_nbits w : Nat) : Option Instr :=
  if w < 2 ^ 48 then
    match decodeBytes (wordBytes (BitVec.ofNat 48 w)) with
    | .ok (i, []) => some i
    | _ => none
  else none

end Sys2Proof
end

