-- ==== Sys2Proof/Machine/State.lean ====
section
/-! DEFINITION. The state of the machine as plain data: every piece the spec names (spec/10_state.md), the launch's
parameters that fix its memory, and the model's own bookkeeping; the reasons a step can stop; the state after reset. -/

namespace Sys2Proof.Machine

/-- A step's faults: the reasons of spec/93_implementation_defined.md Part 2. Each one is the end of the run: the spec
gives the machine no next state, so stopping is safe. -/
inductive Fault where
  /-- Raised by the fetch from an address that holds no instruction (20_memory R62). Safe. -/
  | fetchUnmapped
  /-- Raised by a data read that MemMap does not admit, of a code word too (R63, log 25). Safe. -/
  | readUnmapped
  /-- Raised by a data write that MemMap does not admit (R64). Safe. -/
  | writeUnmapped
  /-- Raised by a store to a word of the program text (R72). Safe. -/
  | writeToCode
  /-- Raised by the read of a `data` word that neither launch nor program has written (R75, log 6). Safe. -/
  | readUnwritten
  /-- Raised by a type 1 instruction whose accesses meet in one word, one of them a store (R76). Safe. -/
  | dualAccessConflict
  /-- Raised by a circular update outside its precondition (40_dag_addressing R116). Safe. -/
  | circularPrecondition
  /-- Raised by the decoder on a word that is no instruction (30_encoding R96). Safe. -/
  | undecodable (why : DecodeError)
  /-- Raised by the instruction after a MODE1 write when old and new MODE1 give different results (10_state R46). Safe. -/
  | mode1Latency
  /-- Raised by what may not stand in a delay slot (43_program_flow R200, R223). Safe. -/
  | branchInDelaySlot
  /-- Raised by an indirect branch whose target has a bit of 31:24 set (R208). Safe. -/
  | branchTargetRange
  /-- Raised by a taken `RTS (LR)` (R203, R214). Safe. -/
  | refusedLR
  /-- Raised by a pop of the PC stack that does not find an entry of its kind (R224). Safe. -/
  | stackKind
  /-- Raised by a taken `JUMP (LA)` with no loop active (R203). Safe. -/
  | loopStackEmpty
  /-- Raised by `DO` with a count of 0 (R216). Safe. -/
  | loopCountZero
  /-- Raised by `DO` with an end before the first instruction of the body (R216). Safe. -/
  | loopEndBeforeStart
  /-- Raised by `DO` with an end at or after the end of the enclosing loop (R216). Safe. -/
  | loopNesting
  /-- Raised by a seventh nested `DO` (R216). Safe. -/
  | loopStackOverflow
  /-- Raised by a push on a PC stack of 30 entries (10_state R30). Safe. -/
  | pcStackOverflow
  /-- Raised by a push on a status stack of 15 entries (R32). Safe. -/
  | statusStackOverflow
  /-- Raised by a pop of an empty status stack (R32). Safe. -/
  | statusStackUnderflow
  /-- Raised by `RTI` or `JUMP (CI)` with no interrupt in service (60_exceptions R270, R271). Safe. -/
  | rtiOutsideHandler
deriving DecidableEq, Repr

/-- What the spec refuses without a fault name of its own (spec/93_implementation_defined.md Part 1, "refuse"). -/
inductive Refusal where
  /-- Raised by an instruction with no meaning yet: none. Safe. -/
  | notModelled (mnemonic : String)
  /-- Raised by every instruction executed while PEYEN, BDCST1 or BDCST9 is 1 (10_state R47). Safe. -/
  | simdMode
  /-- Raised by a write that would put 1 into a reserved bit or change a hardware-owned one (10_state R37,
  44_system_register R230, U6). Safe. -/
  | reservedBit
  /-- Raised by a branch, `DO` or `(DB)` form in the last three instructions of a loop (43_program_flow R220). Safe. -/
  | branchAtLoopEnd
  /-- Raised by an access to a `device` word that the launch does not serve (20_memory R69, D43). Safe. -/
  | deviceNotServed
  /-- Raised by an indirect branch through I8 while BR8 = 1 (40_dag_addressing R119). Safe. -/
  | bitReversedBranch
  /-- Raised by a term that names a register outside the admitted classes; the decoder refuses such a term before
  (10_state R40, R41, D41). Safe. -/
  | registerNotAdmitted
deriving DecidableEq, Repr

/-- The interrupts of the vector table, in the order of their priority (60_exceptions R252, R260). -/
inductive Interrupt where
  | emui | rsti | iicdi | sovfi | tmzhi | virpti
  | irq2i | irq1i | irq0i
  | sp0i | sp1i | sp2i | sp3i
  | lp0i | lp1i | spiri | spiti
  | ep0i | ep1i | ep2i | ep3i
  | lsrqi | cb7i | cb15i | tmzli
  | fixi | fltoi | fltui | fltii
  | sft0i | sft1i | sft2i | sft3i
deriving DecidableEq, Repr

/-- What pushed a PC-stack entry (43_program_flow R224). -/
inductive PcTag where
  | call
  | loop
  | interrupt
deriving DecidableEq, Repr

/-- An entry of the PC stack (10_state R30). -/
structure PcEntry where
  addr : PAddr
  tag : PcTag
deriving DecidableEq, Repr

/-- An entry of the loop stack (10_state R31). -/
structure LoopEntry where
  endAddr : PAddr
  term : CondCode
  count : Word
deriving DecidableEq, Repr

/-- An entry of the status stack (10_state R32). -/
structure StatusEntry where
  mode1 : Word
  astat : Word
deriving DecidableEq, Repr

/-- Delay slots still to execute after a taken delayed branch (10_state R22). -/
inductive SlotsLeft where
  | two
  | one
deriving DecidableEq, Repr

/-- The delayed-branch state (10_state R22). `byRti` is the model's bookkeeping for `POP STS` in a slot of `RTI (DB)`
(43_program_flow R223, log 30). -/
structure Delay where
  left : SlotsLeft
  target : PAddr
  byRti : Bool
deriving DecidableEq, Repr

/-- One copy of the DAG registers (10_state R14, R15). -/
structure DagRegs where
  i : Vector Word 16
  m : Vector Word 16
  l : Vector Word 16
  b : Vector Word 16
deriving DecidableEq, Repr

/-- Memory cells, by strictly rising address. A cell that is not listed holds no value. -/
abbrev Memory := List Host.Cell

/-- The kind of a data word (20_memory R75). `served` is a device word whose behaviour the launch supplies (R69), `ioflag`
the word at which the launch places IOFLAG (10_state R48). -/
inductive MemKind where
  | data
  | shared
  | device
  | served
  | ioflag
deriving DecidableEq, Repr

/-- A range of data addresses of one kind, with the buses that reach it (20_memory R63, R70, D6). -/
structure Region where
  first : Nat
  last : Nat
  kind : MemKind
  dm : Bool
  pm : Bool
deriving DecidableEq, Repr

/-- The latch bits that the environment may set (60_exceptions R253, R254). -/
inductive EnvSource where
  | irq2 | irq1 | irq0 | virpt | lsrq | iicd
  | sp0 | sp1 | sp2 | sp3
  | ep0 | ep1 | ep2 | ep3
  | lp0 | lp1 | spir | spit
deriving DecidableEq, Repr

/-- One move of the environment between two core steps (10_state R10): latch bits set, input pins changed, `shared`
words written. -/
structure EnvMove where
  latches : List EnvSource
  pins : Option (BitVec 12)
  writes : List (Word × Word)
deriving DecidableEq, Repr

/-- The state of the machine. -/
structure State where
  /-- Program counter (10_state R20). -/
  pc : PAddr
  /-- Delayed-branch state (R22). -/
  dly : Option Delay
  /-- After `IDLE`, until an interrupt is taken (R23). -/
  idle : Bool
  /-- Data registers, primary copy (R11, R12). -/
  regs : Vector Word 16
  /-- Data registers, alternate copy (R12). -/
  regsAlt : Vector Word 16
  /-- DAG registers, primary copy (R14, R15). -/
  dag : DagRegs
  /-- DAG registers, alternate copy (R15). -/
  dagAlt : DagRegs
  /-- Multiplier result register, primary copy (R13). -/
  mr : MrWord
  /-- Multiplier result register, alternate copy (R13). -/
  mrAlt : MrWord
  /-- PC stack, top first (R30). -/
  pcStack : List PcEntry
  /-- Loop stack, top first (R31). -/
  loopStack : List LoopEntry
  /-- Status stack, top first (R32). -/
  statusStack : List StatusEntry
  /-- Loop count register (R33). -/
  lcntr : Word
  /-- What was last written to the loop address register; what it reads as is `State.laddrRead` (R33, R40, log 18). -/
  laddr : Word
  /-- Arithmetic status (R34). -/
  astat : Word
  /-- Mode register 1, its contents (R37). -/
  mode1 : Word
  /-- Mode register 2 (R38). -/
  mode2 : Word
  /-- Mode mask register (R39). -/
  mmask : Word
  /-- Interrupt latch; bit 14 is computed, not stored (R43, 60_exceptions R259). -/
  irptl : Word
  /-- Interrupt mask (R43). -/
  imask : Word
  /-- Latch, mask and mask-pointer bits of the four LPISUMI interrupts (R44). -/
  lirptl : Word
  /-- User status register (R42). -/
  ustat1 : Word
  /-- Timer count (R45). -/
  tcount : Word
  /-- Timer period (R45). -/
  tperiod : Word
  /-- Flags 4 to 11: directions in bits 15:8, values in bits 7:0 (R48). -/
  ioflag : Word
  /-- Interrupts in service, most recent first (R49). -/
  isrv : List Interrupt
  /-- Instruction cycles that TIMEXP is still high (R51, 60_exceptions R282). -/
  timexp : Nat
  /-- Levels that the outside drives on the flag pins 0 to 11 (R51, 60_exceptions R290, R291). -/
  flagPins : BitVec 12
  /-- Program text: cells `6 * p + k` hold the bytes of the number of the term at address `p` (20_memory R61, R62; the word
  there is `Config.wordCode` of the number, log 1). -/
  code : Memory
  /-- Data: cells `4 * a + k` hold the bytes of the data word at address `a` (R61, R63). -/
  mem : Memory
  /-- The launch's parameter MemMap for the words that hold no instruction (R70, R75). -/
  memMap : List Region
  /-- The launch's boot mode: no-boot puts the vector table at 0x200000 (70_reset R301). -/
  noBoot : Bool
  /-- The environment's moves to come, one a step (60_exceptions R253). The model's own field (log 11). -/
  env : List EnvMove
  /-- The MODE1 value under which the current instruction runs (R46). The model's own field (log 10). -/
  mode1Act : Word
  /-- The previous instruction or interrupt entry wrote MODE1 (R46). The model's own field (log 10). -/
  mode1Wrote : Bool
  /-- Core steps that a takeable interrupt still waits (60_exceptions R262). The model's own field (log 13). -/
  irqWait : Option Nat
  /-- The step number that the free values are applied to. The model's own field (log 12). -/
  cycle : Nat
deriving DecidableEq, Repr

/-- The outcomes of a step of this machine. -/
abbrev Result := Host.Outcome State Fault Refusal

/-- The vector table's base in a boot mode (70_reset R301). -/
def vectorBase (noBoot : Bool) : PAddr := if noBoot then 0x200000 else 0x040000

/-- The vector table's base of this launch (70_reset R301). -/
def State.ivtBase (s : State) : PAddr := vectorBase s.noBoot

/-- DAG registers that nothing has written. DESIGN CHOICE 0 (log 7); unsafe. -/
def DagRegs.zero : DagRegs where
  i := Vector.replicate 16 0
  m := Vector.replicate 16 0
  l := Vector.replicate 16 0
  b := Vector.replicate 16 0

/-- The machine right after reset in a boot mode: at the word after the reset entry (10_state R57, 70_reset R300, R301).
Values that the spec does not give: log 4, 7, 8, 14, 18, 37. -/
def State.resetIn (noBoot : Bool) : State where
  pc := vectorBase noBoot + 5
  dly := none
  idle := false
  regs := Vector.replicate 16 0
  regsAlt := Vector.replicate 16 0
  dag := DagRegs.zero
  dagAlt := DagRegs.zero
  mr := 0
  mrAlt := 0
  pcStack := []
  loopStack := []
  statusStack := []
  lcntr := 0
  laddr := 0
  astat := 0
  mode1 := 0
  mode2 := 0
  mmask := 0x00200000
  irptl := 0
  imask := 0x00000003
  lirptl := 0
  ustat1 := 0
  tcount := 0
  tperiod := 0
  ioflag := 0
  isrv := []
  timexp := 0
  flagPins := 0
  code := []
  mem := []
  memMap := [⟨0, 0xFFFFFFFF, .data, true, true⟩]
  noBoot := noBoot
  env := []
  mode1Act := 0
  mode1Wrote := false
  irqWait := none
  cycle := 0

/-- The machine right after reset in the default boot mode, the vector table at 0x040000 (70_reset R301). -/
def State.reset : State := State.resetIn false

end Sys2Proof.Machine
end

