-- ==== Sys2Proof/Machine/Flags.lean ====
section
/-! DEFINITION. The fields of MODE1, MODE2 and ASTAT (spec/10_state.md R34, R37, R38; positions that the spec marks as
general knowledge: PRESUMED, log 9), the flag computations, and the truth of the condition codes (R36). -/

namespace Sys2Proof.Machine

/-! ### Modes in force

The modes of the current instruction are those of `mode1Act` (10_state R46, log 10). -/

/-- I8 bit reversal (10_state R37, bit 0). -/
def State.br8 (s : State) : Bool := s.mode1Act.getLsbD 0
/-- I0 bit reversal (bit 1). -/
def State.br0 (s : State) : Bool := s.mode1Act.getLsbD 1
/-- Alternate MR (bit 2). -/
def State.srcu (s : State) : Bool := s.mode1Act.getLsbD 2
/-- Alternate DAG registers of index `n` (bits 3 to 6, 10_state R15). -/
def State.dagSelAlt (s : State) (n : Fin 16) : Bool :=
  if n.val < 4 then s.mode1Act.getLsbD 4
  else if n.val < 8 then s.mode1Act.getLsbD 3
  else if n.val < 12 then s.mode1Act.getLsbD 6
  else s.mode1Act.getLsbD 5
/-- Alternate data register `n` (bits 10 and 7, 10_state R12). -/
def State.dregSelAlt (s : State) (n : DReg) : Bool :=
  if n.val < 8 then s.mode1Act.getLsbD 10 else s.mode1Act.getLsbD 7
/-- Circular buffering (bit 24, 40_dag_addressing R115). -/
def State.cbufen (s : State) : Bool := s.mode1Act.getLsbD 24
/-- PEYEN, BDCST9 or BDCST1 (bits 21, 22, 23, 10_state R47). -/
def State.simd (s : State) : Bool :=
  s.mode1Act.getLsbD 21 || s.mode1Act.getLsbD 22 || s.mode1Act.getLsbD 23

/-- Interrupt nesting (bit 11, 60_exceptions R262), read between instructions. -/
def State.nestm (s : State) : Bool := s.mode1.getLsbD 11
/-- Global interrupt enable (bit 12, 60_exceptions R256), read between instructions. -/
def State.irpten (s : State) : Bool := s.mode1.getLsbD 12

/-- Reserved bits of MODE1: 9:8, 20:19, 31:25 (10_state R37). -/
def mode1Reserved : Word := 0xFE180300
/-- Reserved bits of MODE2: all but those R38 lists. -/
def mode2Reserved : Word := 0xFFC07FC8
/-- Timer enable (MODE2 bit 5, 60_exceptions R280). -/
def State.timen (s : State) : Bool := s.mode2.getLsbD 5
/-- Flag `n` is an output (MODE2 bits 15 to 18, 60_exceptions R290). -/
def State.flagIsOutput (s : State) (n : Fin 4) : Bool := s.mode2.getLsbD (15 + n.val)

/-! ### ASTAT -/

/-- The arithmetic flags: AZ to SS in bits 13:0, compare accumulation in bits 31:24 (10_state R34). -/
def arithMask : Word := 0xFF003FFF
/-- BTF, bit 18 (10_state R34). -/
def btfMask : Word := 0x00040000
/-- FLG0 to FLG3, bits 22:19: the FLGMASK of 44_system_register R241. -/
def flgMask : Word := 0x00780000

/-- `a` with the bits of `mask` taken from `b`. -/
def mergeBits (mask a b : Word) : Word := (a &&& ~~~mask) ||| (b &&& mask)

/-- ASTAT after a bit test (44_system_register R234, R235). -/
def withBtf (astat : Word) (truth : Bool) : Word :=
  mergeBits btfMask astat (if truth then btfMask else 0)

/-- ASTAT after a status-stack pop: all but FLG0-3 from the saved value (44_system_register R241). -/
def restoredAstat (saved current : Word) : Word := mergeBits flgMask saved current

/-- Flag `n` of ASTAT (10_state R34). -/
def State.flg (s : State) (n : Fin 4) : Bool := s.astat.getLsbD (19 + n.val)

/-- The level of flag pin `n`: ASTAT's bit for an output, what the outside drives for an input (60_exceptions R290). -/
def State.flagLevel (s : State) (n : Fin 4) : Bool :=
  if s.flagIsOutput n then s.flg n else s.flagPins.getLsbD n.val

/-! ### Conditions -/

/-- `NOT LCE` after IF: the count of the top loop has not expired (10_state R36, 43_program_flow R219). Outside a counted
loop the spec states no truth: a free value (log 22). -/
def State.notLce (s : State) : Bool :=
  match s.loopStack with
  | e :: _ => if e.term = .lce then decide (e.count ≠ 0) else Config.condEval .notLce s.astat s.mode1Act
  | [] => Config.condEval .notLce s.astat s.mode1Act

/-- The truth of a condition code after IF (10_state R36). Codes the spec does not define are the parameter CondEval
(D15, log 3). -/
def State.cond (s : State) : CondCode → Bool
  | .always => true
  | .tf => s.astat.getLsbD 18
  | .notTf => !s.astat.getLsbD 18
  | .flag0 => s.flg 0
  | .flag1 => s.flg 1
  | .flag2 => s.flg 2
  | .flag3 => s.flg 3
  | .notFlag0 => !s.flg 0
  | .notFlag1 => !s.flg 1
  | .notFlag2 => !s.flg 2
  | .notFlag3 => !s.flg 3
  | .notLce => s.notLce
  | .lce => !s.notLce
  | c => Config.condEval c s.astat s.mode1Act

/-- The truth of a loop termination at the end of a pass (43_program_flow R218, R219): never for FOREVER; else at the
evaluation point that the spec leaves open, a free value (D25, log 21). -/
def State.terminated (s : State) : CondCode → Bool
  | .always => false
  | c => Config.loopTest c s.cycle

end Sys2Proof.Machine
end

