-- ==== Sys2Proof/Machine/Ops.lean ====
section
/-! DEFINITION. The shared operations over memory, registers, stacks and latches; taking an interrupt and returning from
one (spec/60_exceptions.md R263, R270); how an instruction ends (spec/43_program_flow.md R200). -/

namespace Sys2Proof.Machine

/-! ### Sequencing -/

/-- `f` on what `x` gives; a fault or a refusal of `x` stands. -/
def andThen {α β : Type} (x : Host.Outcome α Fault Refusal) (f : α → Host.Outcome β Fault Refusal) :
    Host.Outcome β Fault Refusal :=
  match x with
  | .next a => f a
  | .fault r => .fault r
  | .refused r => .refused r

/-! ### Memory cells -/

/-- The byte of a cell; none where no cell is listed. -/
def Memory.read : Memory → Nat → Option Byte
  | [], _ => none
  | (a, b) :: m, x => if x = a then some b else Memory.read m x

/-- The cells with one written, in canonical form. -/
def Memory.write : Memory → Nat → Byte → Memory
  | [], x, v => [(x, v)]
  | (a, b) :: m, x, v =>
    if x < a then (x, v) :: (a, b) :: m
    else if x = a then (x, v) :: m
    else (a, b) :: Memory.write m x v

/-- The canonical form: addresses strictly rising. -/
def Memory.wf : Memory → Bool
  | [] => true
  | [_] => true
  | c :: d :: m => decide (c.1 < d.1) && Memory.wf (d :: m)

/-- `n` bytes from `base` on; none where a cell is not listed. -/
def Memory.readBytes (m : Memory) (base : Nat) : Nat → Option (List Byte)
  | 0 => some []
  | n + 1 =>
    match Memory.read m base, Memory.readBytes m (base + 1) n with
    | some b, some bs => some (b :: bs)
    | _, _ => none

/-- The cells with bytes written from `base` on. -/
def Memory.writeBytes (m : Memory) (base : Nat) : List Byte → Memory
  | [] => m
  | b :: bs => Memory.writeBytes (Memory.write m base b) (base + 1) bs

/-- The first cell of the data word at `a`. DESIGN CHOICE (log 5): four cells a word, least significant byte first; not
observable (20_memory R67). -/
def wordCell (a : Word) : Nat := 4 * a.toNat

/-- The first cell of the instruction word at `p` (log 5). -/
def codeCell (p : PAddr) : Nat := 6 * p.toNat

/-- The data word at an address; none where nothing has been written. -/
def Memory.readWord (m : Memory) (a : Word) : Option Word :=
  (Memory.readBytes m (wordCell a) 4).map fun bs => BitVec.ofNat 32 (joinBytes bs)

/-- The cells with a data word written. -/
def Memory.writeWord (m : Memory) (a v : Word) : Memory :=
  Memory.writeBytes m (wordCell a) (splitBytes 4 v.toNat)

/-- The bytes of the instruction word at `p`; none where MemMap holds no instruction (20_memory R62). -/
def State.codeBytes (s : State) (p : PAddr) : Option (List Byte) := Memory.readBytes s.code (codeCell p) 6

/-- The data address names a word of the program text (20_memory R61, R72). -/
def State.holdsCode (s : State) (a : Word) : Bool :=
  decide (a.toNat < 2 ^ 24) && (s.codeBytes (a.setWidth 24)).isSome

/-- The region holds the address. -/
def Region.covers (r : Region) (a : Word) : Bool := decide (r.first ≤ a.toNat) && decide (a.toNat ≤ r.last)

/-- The bus reaches the region (20_memory R61, D6). -/
def Region.reachedBy (r : Region) : Bus → Bool
  | .dm => r.dm
  | .pm => r.pm

/-- The region of MemMap that a data address lies in, the first that covers it: one for both buses, since `DM(a)` and `PM(a)`
name one word (20_memory R61, D6, log 4). -/
def State.regionAt (s : State) (a : Word) : Option Region := s.memMap.find? fun r => r.covers a

/-- The kind of a data address on a bus: that of its region, none where MemMap does not admit the address on that bus
(20_memory R61, R63). -/
def State.kindAt (s : State) (bus : Bus) (a : Word) : Option MemKind :=
  (s.regionAt a).bind fun r => if r.reachedBy bus then some r.kind else none

/-- `MemRead(bus, a, 32)` (20_memory R63, R69, R74, R75). -/
def memRead (s : State) (bus : Bus) (a : Word) : Host.Outcome Word Fault Refusal :=
  if s.holdsCode a then .fault .readUnmapped
  else match s.kindAt bus a with
    | none => .fault .readUnmapped
    | some .data => match Memory.readWord s.mem a with
      | some v => .next v
      | none => .fault .readUnwritten
    | some .shared => match Memory.readWord s.mem a with
      | some v => .next v
      | none => .next (Config.sharedWord s.cycle a)
    | some .device => .refused .deviceNotServed
    | some .served => .next (Config.deviceWord s.cycle bus a)
    | some .ioflag => .next s.ioflag

/-- `MemWrite(bus, a, 32, v)` (20_memory R64, R69, R72). What a served device does with the word is the launch's (log 16). -/
def memWrite (bus : Bus) (a v : Word) (s : State) : Result :=
  if s.holdsCode a then .fault .writeToCode
  else match s.kindAt bus a with
    | none => .fault .writeUnmapped
    | some .data => .next { s with mem := Memory.writeWord s.mem a v }
    | some .shared => .next { s with mem := Memory.writeWord s.mem a v }
    | some .device => .refused .deviceNotServed
    | some .served => .next s
    | some .ioflag => .next { s with ioflag := v }

/-! ### Data and DAG registers -/

/-- The active copy of a data register (10_state R12). -/
def State.getR (s : State) (n : DReg) : Word := if s.dregSelAlt n then s.regsAlt[n] else s.regs[n]

/-- The state with the active copy of a data register written (10_state R12). -/
def setR (n : DReg) (v : Word) (s : State) : State :=
  { s with
    regs := if s.dregSelAlt n then s.regs else s.regs.set n v
    regsAlt := if s.dregSelAlt n then s.regsAlt.set n v else s.regsAlt }

/-- The copy of the DAG registers that index `n` selects (10_state R15). -/
def State.dagOf (s : State) (n : Fin 16) : DagRegs := if s.dagSelAlt n then s.dagAlt else s.dag

/-- The state with the copy that index `n` selects replaced. -/
def setDag (n : Fin 16) (d : DagRegs) (s : State) : State :=
  { s with
    dag := if s.dagSelAlt n then s.dag else d
    dagAlt := if s.dagSelAlt n then d else s.dagAlt }

def State.getI (s : State) (n : Fin 16) : Word := (s.dagOf n).i[n]
def State.getM (s : State) (n : Fin 16) : Word := (s.dagOf n).m[n]
def State.getL (s : State) (n : Fin 16) : Word := (s.dagOf n).l[n]
def State.getB (s : State) (n : Fin 16) : Word := (s.dagOf n).b[n]

def setI (n : Fin 16) (v : Word) (s : State) : State := setDag n { s.dagOf n with i := (s.dagOf n).i.set n v } s
def setM (n : Fin 16) (v : Word) (s : State) : State := setDag n { s.dagOf n with m := (s.dagOf n).m.set n v } s
def setL (n : Fin 16) (v : Word) (s : State) : State := setDag n { s.dagOf n with l := (s.dagOf n).l.set n v } s

/-- A write of B[n] writes the same value to I[n], in the same copy (10_state R16). -/
def setB (n : Fin 16) (v : Word) (s : State) : State :=
  setDag n { s.dagOf n with b := (s.dagOf n).b.set n v, i := (s.dagOf n).i.set n v } s

/-- The active copy of MR (10_state R13). -/
def State.getMr (s : State) : MrWord := if s.srcu then s.mrAlt else s.mr

def setMr (v : MrWord) (s : State) : State :=
  { s with
    mr := if s.srcu then s.mr else v
    mrAlt := if s.srcu then v else s.mrAlt }

/-! ### Interrupt latches -/

/-- The register and bit of an interrupt's latch. -/
inductive LatchPlace where
  | irptl (bit : Nat)
  | lirptl (bit : Nat)
deriving DecidableEq, Repr

/-- The latch of an interrupt (60_exceptions R252, last column). -/
def Interrupt.place : Interrupt → LatchPlace
  | .emui => .irptl 0 | .rsti => .irptl 1 | .iicdi => .irptl 2 | .sovfi => .irptl 3 | .tmzhi => .irptl 4
  | .virpti => .irptl 5 | .irq2i => .irptl 6 | .irq1i => .irptl 7 | .irq0i => .irptl 8
  | .sp0i => .irptl 10 | .sp1i => .irptl 11 | .sp2i => .irptl 12 | .sp3i => .irptl 13
  | .lp0i => .lirptl 0 | .lp1i => .lirptl 1 | .spiri => .lirptl 2 | .spiti => .lirptl 3
  | .ep0i => .irptl 15 | .ep1i => .irptl 16 | .ep2i => .irptl 17 | .ep3i => .irptl 18
  | .lsrqi => .irptl 19 | .cb7i => .irptl 20 | .cb15i => .irptl 21 | .tmzli => .irptl 22
  | .fixi => .irptl 23 | .fltoi => .irptl 24 | .fltui => .irptl 25 | .fltii => .irptl 26
  | .sft0i => .irptl 27 | .sft1i => .irptl 28 | .sft2i => .irptl 29 | .sft3i => .irptl 30

/-- The vector offset of an interrupt (60_exceptions R252); the lower, the higher its priority (R260). -/
def Interrupt.offset : Interrupt → Nat
  | .emui => 0x00 | .rsti => 0x04 | .iicdi => 0x08 | .sovfi => 0x0C | .tmzhi => 0x10 | .virpti => 0x14
  | .irq2i => 0x18 | .irq1i => 0x1C | .irq0i => 0x20
  | .sp0i => 0x28 | .sp1i => 0x2C | .sp2i => 0x30 | .sp3i => 0x34
  | .lp0i => 0x38 | .lp1i => 0x3C | .spiri => 0x40 | .spiti => 0x44
  | .ep0i => 0x50 | .ep1i => 0x54 | .ep2i => 0x58 | .ep3i => 0x5C
  | .lsrqi => 0x60 | .cb7i => 0x64 | .cb15i => 0x68 | .tmzli => 0x6C
  | .fixi => 0x70 | .fltoi => 0x74 | .fltui => 0x78 | .fltii => 0x7C
  | .sft0i => 0x80 | .sft1i => 0x84 | .sft2i => 0x88 | .sft3i => 0x8C

/-- The interrupts that the core takes, highest priority first (60_exceptions R260). EMUI and RSTI are not among them
(R251, R293, 70_reset R300; log 26). -/
def Interrupt.byPriority : List Interrupt :=
  [.iicdi, .sovfi, .tmzhi, .virpti, .irq2i, .irq1i, .irq0i, .sp0i, .sp1i, .sp2i, .sp3i, .lp0i, .lp1i, .spiri, .spiti,
   .ep0i, .ep1i, .ep2i, .ep3i, .lsrqi, .cb7i, .cb15i, .tmzli, .fixi, .fltoi, .fltui, .fltii, .sft0i, .sft1i, .sft2i, .sft3i]

/-- The interrupts whose entry saves MODE1 and ASTAT (60_exceptions R264). -/
def Interrupt.savesStatus : Interrupt → Bool
  | .irq2i | .irq1i | .irq0i | .tmzhi | .tmzli | .virpti => true
  | .emui | .rsti | .iicdi | .sovfi | .sp0i | .sp1i | .sp2i | .sp3i | .lp0i | .lp1i | .spiri | .spiti => false
  | .ep0i | .ep1i | .ep2i | .ep3i | .lsrqi | .cb7i | .cb15i | .fixi | .fltoi | .fltui | .fltii => false
  | .sft0i | .sft1i | .sft2i | .sft3i => false

def bitMask (n : Nat) : Word := BitVec.twoPow 32 n

/-- An interrupt's latch bit in IRPTL, if it is there. -/
def Interrupt.irptlBit (n : Interrupt) : Word :=
  match n.place with
  | .irptl k => bitMask k
  | .lirptl _ => 0

/-- An interrupt's latch bit in LIRPTL, if it is there. -/
def Interrupt.lirptlBit (n : Interrupt) : Word :=
  match n.place with
  | .irptl _ => 0
  | .lirptl k => bitMask k

/-- `raise`: the latch bit is set (60_exceptions R255). -/
def latch (n : Interrupt) (s : State) : State :=
  { s with irptl := s.irptl ||| n.irptlBit, lirptl := s.lirptl ||| n.lirptlBit }

/-- The latch bit is cleared (60_exceptions R263). -/
def unlatch (n : Interrupt) (s : State) : State :=
  { s with irptl := s.irptl &&& ~~~n.irptlBit, lirptl := s.lirptl &&& ~~~n.lirptlBit }

def State.latched (s : State) (n : Interrupt) : Bool :=
  match n.place with
  | .irptl k => s.irptl.getLsbD k
  | .lirptl k => s.lirptl.getLsbD k

/-- Unmasked and globally enabled (60_exceptions R256). -/
def State.enabled (s : State) (n : Interrupt) : Bool :=
  s.irpten &&
    match n.place with
    | .irptl k => s.imask.getLsbD k
    | .lirptl k => s.lirptl.getLsbD (16 + k) && s.imask.getLsbD 14

/-! ### MODE1 and the stacks -/

/-- A write of MODE1: it takes force as 10_state R46 says. -/
def writeMode1 (v : Word) (s : State) : State := { s with mode1 := v, mode1Wrote := true }

/-- A write of MODE1 by an instruction; a 1 in a reserved bit is refused (10_state R37, U6). -/
def loadMode1 (v : Word) (s : State) : Result :=
  if v &&& mode1Reserved = 0 then .next (writeMode1 v s) else .refused .reservedBit

/-- A push on the PC stack; SOVFI is latched when it becomes full (10_state R30). -/
def pushPc (addr : PAddr) (tag : PcTag) (s : State) : Result :=
  if Config.pcStackDepth ≤ s.pcStack.length then .fault .pcStackOverflow
  else if s.pcStack.length + 1 = Config.pcStackDepth then
    .next (latch .sovfi { s with pcStack := ⟨addr, tag⟩ :: s.pcStack })
  else .next { s with pcStack := ⟨addr, tag⟩ :: s.pcStack }

/-- A pop of the PC stack by the instruction that expects an entry of kind `tag` (43_program_flow R224, U24, U26). -/
def popPc (tag : PcTag) (s : State) : Host.Outcome (PAddr × State) Fault Refusal :=
  match s.pcStack with
  | e :: rest => if e.tag = tag then .next (e.addr, { s with pcStack := rest }) else .fault .stackKind
  | [] => .fault .stackKind

/-- A push on the loop stack (10_state R31). -/
def pushLoop (e : LoopEntry) (s : State) : Result :=
  if Config.loopStackDepth ≤ s.loopStack.length then .fault .loopStackOverflow
  else .next { s with loopStack := e :: s.loopStack }

/-- A status-stack push: MODE1 and ASTAT saved, then MODE1 masked with MMASK (10_state R32, R39). -/
def pushStatus (s : State) : Result :=
  if Config.statusStackDepth ≤ s.statusStack.length then .fault .statusStackOverflow
  else .next (writeMode1 (s.mode1 &&& ~~~s.mmask) { s with statusStack := ⟨s.mode1Act, s.astat⟩ :: s.statusStack })

/-- A status-stack pop: MODE1 and ASTAT but for FLG0-3 (44_system_register R241). -/
def popStatus (s : State) : Result :=
  match s.statusStack with
  | [] => .fault .statusStackUnderflow
  | e :: rest => loadMode1 e.mode1 { s with statusStack := rest, astat := restoredAstat e.astat s.astat }

/-! ### Interrupt entry and return -/

/-- The vector of an interrupt (60_exceptions R252). -/
def State.vector (s : State) (n : Interrupt) : PAddr := s.ivtBase + BitVec.ofNat 24 n.offset

/-- Interrupt entry (60_exceptions R263, R264). -/
def takeInterrupt (n : Interrupt) (s : State) : Result :=
  andThen (pushPc s.pc .interrupt (unlatch n s)) fun s1 =>
  andThen (if n.savesStatus then pushStatus s1 else .next s1) fun s2 =>
  .next { s2 with isrv := n :: s2.isrv, idle := false, irqWait := none, pc := s.vector n }

/-- `ReturnFromInterrupt()` (60_exceptions R270): the return address and the state with everything popped. -/
def returnFromInterrupt (s : State) : Host.Outcome (PAddr × State) Fault Refusal :=
  match s.isrv with
  | [] => .fault .rtiOutsideHandler
  | n :: rest =>
    andThen (popPc .interrupt s) fun (t, s1) =>
    andThen (if n.savesStatus then popStatus { s1 with isrv := rest } else .next { s1 with isrv := rest }) fun s2 =>
    .next (t, s2)

/-- The topmost entry tagged `interrupt` re-tagged `call` (43_program_flow R203). -/
def retagInterrupt : List PcEntry → List PcEntry
  | [] => []
  | e :: rest => if e.tag = .interrupt then { e with tag := .call } :: rest else e :: retagInterrupt rest

/-- The modifier `(CI)` (43_program_flow R203, 60_exceptions R271). -/
def clearInterrupt (s : State) : Result :=
  match s.isrv with
  | [] => .fault .rtiOutsideHandler
  | _ :: rest => .next { s with isrv := rest, pcStack := retagInterrupt s.pcStack }

/-- The modifier `(LA)` (43_program_flow R203). -/
def abortLoop (s : State) : Result :=
  match s.loopStack with
  | [] => .fault .loopStackEmpty
  | _ :: rest => andThen (popPc .loop { s with loopStack := rest }) fun (_, s1) => .next s1

/-! ### How an instruction begins and ends -/

/-- What an instruction yields (43_program_flow R200). `byRti` is the model's bookkeeping (log 30). -/
inductive Yield where
  | noBranch
  | branch (t : PAddr)
  | delayed (t : PAddr) (byRti : Bool)
deriving DecidableEq, Repr

/-- A taken branch, delayed with `(DB)` (43_program_flow R201, R202). -/
def branchTo (db byRti : Bool) (t : PAddr) : Yield := if db then .delayed t byRti else .branch t

/-- The instruction stands at the end of the innermost active loop (43_program_flow R200, R219). -/
def State.atLoopEnd (s : State) : Bool :=
  match s.loopStack with
  | [] => false
  | e :: _ => decide (s.pc = e.endAddr)

/-- The instruction stands at the end of some active loop, the innermost or one around it (43_program_flow R223). -/
def State.atSomeLoopEnd (s : State) : Bool := s.loopStack.any fun e => decide (s.pc = e.endAddr)

/-- The instruction stands in the last three addresses of some active loop, the innermost or one around it
(43_program_flow R220). -/
def State.inLoopTail (s : State) : Bool :=
  s.loopStack.any fun e => decide (e.endAddr.toNat ≤ s.pc.toNat + 2) && decide (s.pc.toNat ≤ e.endAddr.toNat)

/-- Loop-end processing (43_program_flow R219). -/
def loopEnd (s : State) : Result :=
  match s.loopStack with
  | [] => .next { s with pc := s.pc + 1 }
  | e :: rest =>
    match s.pcStack with
    | [] => .fault .stackKind
    | p :: below =>
      if p.tag ≠ .loop then .fault .stackKind
      else if e.term = .lce then
        if e.count - 1 = 0 then .next { s with loopStack := rest, pcStack := below, pc := s.pc + 1 }
        else .next { s with loopStack := { e with count := e.count - 1 } :: rest, pc := p.addr }
      else if s.terminated e.term then .next { s with loopStack := rest, pcStack := below, pc := s.pc + 1 }
      else .next { s with pc := p.addr }

/-- The next `pc` after an instruction: delay slot, branch, loop end or `pc + 1` (43_program_flow R200); a slot at the end of
any active loop stops (R223). -/
def retire (y : Yield) (s : State) : Result :=
  match s.dly with
  | some d =>
    if y ≠ .noBranch ∨ s.atSomeLoopEnd then .fault .branchInDelaySlot
    else match d.left with
      | .two => .next { s with dly := some { d with left := .one }, pc := s.pc + 1 }
      | .one => .next { s with dly := none, pc := d.target }
  | none =>
    match y with
    | .branch t => .next { s with pc := t }
    | .delayed t byRti => .next { s with dly := some ⟨.two, t, byRti⟩, pc := s.pc + 1 }
    | .noBranch => if s.atLoopEnd then loopEnd s else .next { s with pc := s.pc + 1 }

/-- What kind of instruction stands there, for the rules on delay slots and loop ends (43_program_flow R220, R223). -/
inductive FlowKind where
  /-- Admitted everywhere. -/
  | plain
  /-- `JUMP`. -/
  | jump (la db : Bool)
  /-- `CALL`, `RTS`, `RTI`, `DO`. -/
  | flow
  /-- `IDLE`, `PUSH STS`. -/
  | notInSlot
  /-- `POP STS`. -/
  | popSts
deriving DecidableEq, Repr

/-- The kind may stand in a delay slot of the branch `d` (43_program_flow R223). -/
def FlowKind.inSlot (k : FlowKind) (d : Delay) : Bool :=
  match k with
  | .plain => true
  | .popSts => d.byRti
  | .jump _ _ | .flow | .notInSlot => false

/-- The kind may stand in the last three instructions of a loop (43_program_flow R220). -/
def FlowKind.inTail : FlowKind → Bool
  | .plain | .notInSlot | .popSts => true
  | .jump la db => la && !db
  | .flow => false

/-- An instruction: where it may stand, its effects, how it ends (43_program_flow R200, R220, R223, 10_state R47). -/
def run (k : FlowKind) (s : State) (effects : Host.Outcome (State × Yield) Fault Refusal) : Result :=
  if s.simd then .refused .simdMode
  else if (s.dly.map fun d => k.inSlot d) = some false then .fault .branchInDelaySlot
  else if s.inLoopTail && !k.inTail then .refused .branchAtLoopEnd
  else andThen effects fun (s1, y) => retire y s1

/-- An instruction that never branches. -/
def runPlain (k : FlowKind) (s : State) (effects : Result) : Result :=
  run k s (andThen effects fun s1 => .next (s1, .noBranch))

end Sys2Proof.Machine
end

