-- ==== Sys2Proof/Machine/Operands.lean ====
section
/-! DEFINITION. The operand forms: the DAG addressing operations (spec/40_dag_addressing.md), the universal and system
registers (spec/10_state.md R40, R41), compute operations (spec/41_compute_move.md R141), branch targets and branch clauses
(spec/43_program_flow.md). -/

namespace Sys2Proof.Machine

/-! ### DAG addressing -/

/-- The bits of a word in reverse order (00_scope R6). -/
def bitrev32 (v : Word) : Word := BitVec.reverse v

/-- `sext_32(data6)` (30_encoding R93). -/
def data6Value (v : BitVec 6) : Word := v.signExtend 32

/-- The register of the bus's DAG with that index: DAG1 for DM, DAG2 for PM (20_memory R65). -/
def dagIndex : Bus → Fin 8 → Fin 16
  | .dm, n => ⟨n.val, by omega⟩
  | .pm, n => ⟨n.val + 8, by omega⟩

/-- `AddrOut(n, a)` (40_dag_addressing R119). -/
def State.addrOut (s : State) (n : Fin 16) (a : Word) : Word :=
  if (n.val = 0 ∧ s.br0) ∨ (n.val = 8 ∧ s.br8) then bitrev32 a else a

/-- Circular buffering is active for index `n` (40_dag_addressing R115). -/
def State.circular (s : State) (n : Fin 16) : Bool := s.cbufen && decide (s.getL n ≠ 0)

/-- The old index is in the buffer and the modifier is no longer than it (40_dag_addressing R116, D18). -/
def circularOk (b l i m : Word) : Bool :=
  decide (b.toNat ≤ i.toNat) && decide (i.toNat < b.toNat + l.toNat) && decide (m.toInt.natAbs ≤ l.toNat)

/-- The update of a circular buffer: the new index, and whether it wrapped (40_dag_addressing R116). -/
def circularNext (b l i m : Word) : Word × Bool :=
  let t : Int := i.toNat + m.toInt
  if 0 ≤ m.toInt ∧ (b.toNat + l.toNat : Int) ≤ t then (BitVec.ofInt 32 (t - l.toNat), true)
  else if m.toInt < 0 ∧ t < b.toNat then (BitVec.ofInt 32 (t + l.toNat), true)
  else (BitVec.ofInt 32 t, false)

/-- The latch bit that a wrap of index `n` sets: CB7I's or CB15I's only (40_dag_addressing R117). -/
def wrapBit (n : Fin 16) : Word :=
  if n.val = 7 then Interrupt.irptlBit .cb7i else if n.val = 15 then Interrupt.irptlBit .cb15i else 0

/-- The interrupt of a wrap latched (40_dag_addressing R117). -/
def latchWrap (n : Fin 16) (s : State) : State := { s with irptl := s.irptl ||| wrapBit n }

/-- `ModifyOnly(n, m)`: I[n] written with `CircUpdate` (40_dag_addressing R114, R116, R117). -/
def modifyIndex (n : Fin 16) (m : Word) (s : State) : Result :=
  if s.circular n then
    if circularOk (s.getB n) (s.getL n) (s.getI n) m then
      let next := circularNext (s.getB n) (s.getL n) (s.getI n) m
      let s1 := setI n next.1 s
      .next (if next.2 then latchWrap n s1 else s1)
    else .fault .circularPrecondition
  else .next (setI n (s.getI n + m) s)

/-- `PreModify(n, m)` (40_dag_addressing R111). -/
def State.preModify (s : State) (n : Fin 16) (m : Word) : Word := s.addrOut n (s.getI n + m)

/-- The address of `PostModify(n, m)`: I[n] before the update (40_dag_addressing R112). -/
def State.postAddr (s : State) (n : Fin 16) : Word := s.addrOut n (s.getI n)

/-- The two indirect forms: `(I, M)` and `(M, I)` (30_encoding R97). -/
inductive DagForm where
  | post
  | pre
deriving DecidableEq, Repr

/-- The address that a DAG puts out (40_dag_addressing R111, R112). -/
def State.dagAddr (s : State) (form : DagForm) (n : Fin 16) (m : Word) : Word :=
  match form with
  | .post => s.postAddr n
  | .pre => s.preModify n m

/-- What the form does to I[n] (40_dag_addressing R111, R112). -/
def dagUpdate (form : DagForm) (n : Fin 16) (m : Word) (s : State) : Result :=
  match form with
  | .post => modifyIndex n m s
  | .pre => .next s

/-! ### System and universal registers -/

/-- IRPTL as it reads: bit 14 is the OR of LIRPTL's unmasked latches (60_exceptions R259). -/
def State.irptlRead (s : State) : Word :=
  (s.irptl &&& ~~~bitMask 14) |||
    (if (s.lirptl &&& (s.lirptl >>> 16)) &&& 0x0000000F = 0 then 0 else bitMask 14)

/-- The mask-pointer bits of LIRPTL, the hardware's record during a handler (60_exceptions R266): a free value while an
interrupt is in service, else 0. DEDUCED (log 19). -/
def State.maskPointerBits (s : State) : BitVec 4 :=
  match s.isrv with
  | [] => 0
  | _ :: _ => Config.maskPointers s.cycle

/-- LIRPTL as it reads: bits 27:24 are the mask pointers (10_state R44, log 19). -/
def State.lirptlRead (s : State) : Word :=
  (s.lirptl &&& 0xF0FFFFFF) ||| (s.maskPointerBits.setWidth 32 <<< 24)

/-- A write of IRPTL: bits 0, 9 and 31 (reserved vectors) may not change (U6), bit 14 is not written by software
(60_exceptions R259, log 20). -/
def loadIrptl (v : Word) (s : State) : Result :=
  if (v ^^^ s.irptl) &&& 0x80000201 = 0 then
    .next { s with irptl := (v &&& ~~~bitMask 14) ||| (s.irptl &&& bitMask 14) }
  else .refused .reservedBit

/-- A write of IMASK: bits 9 and 31 are reserved, bits 1:0 may not change (10_state R43, U6). -/
def loadImask (v : Word) (s : State) : Result :=
  if v &&& 0x80000200 = 0 ∧ (v ^^^ s.imask) &&& 0x00000003 = 0 then .next { s with imask := v }
  else .refused .reservedBit

/-- The value has LIRPTL's mask-pointer bits as the model holds them, which does not update them (60_exceptions R266). -/
def State.keepsPointers (s : State) (v : Word) : Bool := (v ^^^ s.lirptl) &&& 0x0F000000 == 0

/-- The value has LIRPTL's mask-pointer bits as they read (log 19). -/
def State.readsPointers (s : State) (v : Word) : Bool := (v ^^^ s.lirptlRead) &&& 0x0F000000 == 0

/-- A write of LIRPTL, with whether the mask-pointer bits 27:24 are unchanged: bits 15:4, 23:20, 31:28 are reserved, and a change of
the mask pointers, which the hardware alone writes, is refused (10_state R44, 44_system_register R230, U6, log 19). -/
def loadLirptl (unchanged : Bool) (v : Word) (s : State) : Result :=
  if v &&& 0xF0F0FFF0 = 0 ∧ unchanged then
    .next { s with lirptl := (v &&& 0xF0FFFFFF) ||| (s.lirptl &&& 0x0F000000) }
  else .refused .reservedBit

/-- A write of MODE2 (10_state R38, U6). -/
def loadMode2 (v : Word) (s : State) : Result :=
  if v &&& mode2Reserved = 0 then .next { s with mode2 := v } else .refused .reservedBit

/-- LADDR as it reads: a free value of the top of the loop stack and of what was last written to it (10_state R33, R40,
log 18). -/
def State.laddrRead (s : State) : Word :=
  Config.laddrWord (s.loopStack.head?.map fun e => (e.endAddr, e.term, e.count)) s.laddr

/-- A write of LADDR: the word is held and the loop stack stays; the value that LADDR reads as is no change of it (10_state
R31, R40, 41_compute_move R153). DEDUCED (log 18); unsafe. -/
def loadLaddr (v : Word) (s : State) : State := { s with laddr := if v = s.laddrRead then s.laddr else v }

/-- `ureg(u)` (10_state R40). MODE1 reads as the value in force (R46, log 10). -/
def State.readUreg (s : State) : UReg → Host.Outcome Word Fault Refusal
  | .r n => .next (s.getR n)
  | .i n => .next (s.getI n)
  | .m n => .next (s.getM n)
  | .l n => .next (s.getL n)
  | .b n => .next (s.getB n)
  | .tcount => .next s.tcount
  | .tperiod => .next s.tperiod
  | .lcntr => .next s.lcntr
  | .laddr => .next s.laddrRead
  | .mode1 => .next s.mode1Act
  | .mode2 => .next s.mode2
  | .mmask => .next s.mmask
  | .astat => .next s.astat
  | .irptl => .next s.irptlRead
  | .imask => .next s.imask
  | .lirptl => .next s.lirptlRead
  | .ustat1 => .next s.ustat1
  | .pc | .pcstk | .pcstkp | .faddr | .daddr | .curlcntr => .refused .registerNotAdmitted
  | .ustat2 | .ustat3 | .ustat4 | .flags | .stky | .imaskp => .refused .registerNotAdmitted
  | .px | .px1 | .px2 | .s _ => .refused .registerNotAdmitted

/-- `ureg(u) <- v` with its side effects (10_state R16, R40, R46). -/
def writeUreg (u : UReg) (v : Word) (s : State) : Result :=
  match u with
  | .r n => .next (setR n v s)
  | .i n => .next (setI n v s)
  | .m n => .next (setM n v s)
  | .l n => .next (setL n v s)
  | .b n => .next (setB n v s)
  | .tcount => .next { s with tcount := v }
  | .tperiod => .next { s with tperiod := v }
  | .lcntr => .next { s with lcntr := v }
  | .laddr => .next (loadLaddr v s)
  | .mode1 => loadMode1 v s
  | .mode2 => loadMode2 v s
  | .mmask => .next { s with mmask := v }
  | .astat => .next { s with astat := v }
  | .irptl => loadIrptl v s
  | .imask => loadImask v s
  | .lirptl => loadLirptl (s.keepsPointers v || s.readsPointers v) v s
  | .ustat1 => .next { s with ustat1 := v }
  | .pc | .pcstk | .pcstkp | .faddr | .daddr | .curlcntr => .refused .registerNotAdmitted
  | .ustat2 | .ustat3 | .ustat4 | .flags | .stky | .imaskp => .refused .registerNotAdmitted
  | .px | .px1 | .px2 | .s _ => .refused .registerNotAdmitted

/-- The value that `BIT TST` and `BIT XOR` test: the register as it reads (44_system_register R230). -/
def State.readSreg (s : State) : SReg → Host.Outcome Word Fault Refusal
  | .mode1 => .next s.mode1Act
  | .mode2 => .next s.mode2
  | .astat => .next s.astat
  | .imask => .next s.imask
  | .irptl => .next s.irptlRead
  | .lirptl => .next s.lirptlRead
  | .mmask => .next s.mmask
  | .ustat1 => .next s.ustat1
  | .flags | .imaskp | .stky | .ustat2 | .ustat3 | .ustat4 => .refused .registerNotAdmitted

/-- `BIT SET`, `CLR`, `TGL`: a change in place of what the register holds (44_system_register R230 to R233, logs 10, 19). -/
def changeSreg (r : SReg) (f : Word → Word) (s : State) : Result :=
  match r with
  | .mode1 => loadMode1 (f s.mode1) s
  | .mode2 => loadMode2 (f s.mode2) s
  | .astat => .next { s with astat := f s.astat }
  | .imask => loadImask (f s.imask) s
  | .irptl => loadIrptl (f s.irptl) s
  | .lirptl => loadLirptl (s.keepsPointers (f s.lirptl)) (f s.lirptl) s
  | .mmask => .next { s with mmask := f s.mmask }
  | .ustat1 => .next { s with ustat1 := f s.ustat1 }
  | .flags | .imaskp | .stky | .ustat2 | .ustat3 | .ustat4 => .refused .registerNotAdmitted

/-- A bit test: BTF is the truth of `test` on the register (44_system_register R234, R235). -/
def testSreg (r : SReg) (test : Word → Bool) (s : State) : Result :=
  andThen (s.readSreg r) fun v => .next { s with astat := withBtf s.astat (test v) }

/-! ### Compute -/

/-- What an operation reads (41_compute_move R141). -/
def State.computeInput (s : State) : Config.ComputeInput where
  regs := Vector.ofFn s.getR
  mr := s.getMr
  astat := s.astat
  alusat := s.mode1Act.getLsbD 13
  trunc := s.mode1Act.getLsbD 15
  rnd32 := s.mode1Act.getLsbD 16
  srcu := s.srcu

/-- The writes of an operation: its result registers, MR, ASTAT's arithmetic flags, the four arithmetic interrupts
(41_compute_move R141, 60_exceptions R296). `inp` is read before the instruction's writes (R142). -/
def computeWrites (slot : Config.Slot) (c : Compute) (inp : Config.ComputeInput) (s : State) : State :=
  let s1 := c.dests.foldl (fun t d => setR d (Config.computeValue slot c inp d) t) s
  let s2 := setMr (Config.computeMr slot c inp) s
  { s with
    regs := s1.regs
    regsAlt := s1.regsAlt
    mr := s2.mr
    mrAlt := s2.mrAlt
    astat := mergeBits arithMask s.astat (Config.computeFlags slot c inp)
    irptl := s.irptl ||| ((Config.computeLatches slot c inp).setWidth 32 <<< 23) }

/-- `apply Compute(op, s)`: `none` writes nothing (41_compute_move R141). -/
def applyCompute (slot : Config.Slot) (c : Compute) (inp : Config.ComputeInput) (s : State) : State :=
  match c with
  | .none => s
  | c => computeWrites slot c inp s

/-! ### Moves beside a compute -/

/-- An instruction that a false condition makes do nothing (41_compute_move R140). -/
def whenCond (c : CondCode) (s : State) (effects : Result) : Result := if s.cond c then effects else .next s

/-- Store of `v` through a DAG, then the operation (41_compute_move R145, R146). -/
def storeMove (form : DagForm) (bus : Bus) (n : Fin 16) (m : Word) (v : Word) (slot : Config.Slot) (c : Compute)
    (s : State) : Result :=
  andThen (dagUpdate form n m s) fun s1 =>
  andThen (memWrite bus (s.dagAddr form n m) v s1) fun s2 =>
  .next (applyCompute slot c s.computeInput s2)

/-- Load through a DAG, the operation, then the write of the register (41_compute_move R147, R148). -/
def loadMove (form : DagForm) (bus : Bus) (n : Fin 16) (m : Word) (u : UReg) (slot : Config.Slot) (c : Compute)
    (s : State) : Result :=
  andThen (dagUpdate form n m s) fun s1 =>
  andThen (memRead s1 bus (s.dagAddr form n m)) fun v =>
  writeUreg u v (applyCompute slot c s.computeInput s1)

/-- The DM move of 43_program_flow R212 and R213: post-modify, with an M register of DAG1. -/
def dmMove (dir : Dir) (ia mb : Fin 8) (d : DReg) (c : Compute) (s : State) : Result :=
  match dir with
  | .store => storeMove .post .dm (dagIndex .dm ia) (s.getM (dagIndex .dm mb)) (s.getR d) .compute c s
  | .load => loadMove .post .dm (dagIndex .dm ia) (s.getM (dagIndex .dm mb)) (.r d) .compute c s

/-! ### Branches -/

/-- A target relative to the instruction itself (30_encoding R93, 43_program_flow R205). -/
def relTarget (pc : PAddr) {w : Nat} (off : BitVec w) : PAddr := pc + off.signExtend 24

/-- The end address of a `DO` (43_program_flow R216). -/
def State.loopTarget (s : State) : Target → PAddr
  | .absolute a => a
  | .relative off => relTarget s.pc off

/-- The target of an indirect branch (43_program_flow R208, 40_dag_addressing R119). -/
def State.indirectTarget (s : State) (md ic : Fin 8) : Host.Outcome PAddr Fault Refusal :=
  if ic.val = 0 ∧ s.br8 then .refused .bitReversedBranch
  else
    let a := s.getI (dagIndex .pm ic) + s.getM (dagIndex .pm md)
    if a.toNat < 2 ^ 24 then .next (a.setWidth 24) else .fault .branchTargetRange

/-- The operation of a clause, when the branch is taken or not (43_program_flow section 3). -/
def clauseOperation : Clause → Bool → Compute
  | .withCompute c, true => c
  | .elseCompute c, false => c
  | _, _ => .none

/-- The effects of a conditional branch beside a clause (43_program_flow R208 to R211, R214): taken, `taken` then the
clause's operation; not taken, the operation of an `ELSE`. -/
def branchEffects (cond : CondCode) (clause : Clause) (s : State)
    (taken : Host.Outcome (State × Yield) Fault Refusal) : Host.Outcome (State × Yield) Fault Refusal :=
  if s.cond cond then
    andThen taken fun (s1, y) => .next (applyCompute .compute (clauseOperation clause true) s.computeInput s1, y)
  else .next (applyCompute .compute (clauseOperation clause false) s.computeInput s, .noBranch)

/-- A taken `JUMP` (43_program_flow R203, R204). -/
def jumpTaken (t : PAddr) (db la ci : Bool) (s : State) : Host.Outcome (State × Yield) Fault Refusal :=
  andThen (if la then abortLoop s else .next s) fun s1 =>
  andThen (if ci then clearInterrupt s1 else .next s1) fun s2 =>
  .next (s2, branchTo db false t)

/-- A taken `CALL`: the return address is after the call, or after its two delay slots (43_program_flow R206, R224). -/
def callTaken (t : PAddr) (db : Bool) (s : State) : Host.Outcome (State × Yield) Fault Refusal :=
  andThen (pushPc (if db then s.pc + 3 else s.pc + 1) .call s) fun s1 => .next (s1, branchTo db false t)

/-- A taken `RTS` (43_program_flow R214). -/
def rtsTaken (db lr : Bool) (s : State) : Host.Outcome (State × Yield) Fault Refusal :=
  if lr then .fault .refusedLR
  else andThen (popPc .call s) fun (t, s1) => .next (s1, branchTo db false t)

/-- `DO`: the checks, then both pushes (43_program_flow R216, R218). -/
def startLoop (endAddr : PAddr) (term : CondCode) (count : Word) (s : State) : Result :=
  if endAddr.toNat < (s.pc + 1).toNat then .fault .loopEndBeforeStart
  else if (s.loopStack.head?.map fun e => decide (e.endAddr.toNat ≤ endAddr.toNat)) = some true then
    .fault .loopNesting
  else
    andThen (pushPc (s.pc + 1) .loop s) fun s1 => pushLoop ⟨endAddr, term, count⟩ s1

/-- `LCNTR = n, DO … UNTIL LCE` (43_program_flow R216, R217). -/
def countedLoop (n : Word) (endAddr : PAddr) (s : State) : Result :=
  if n = 0 then .fault .loopCountZero
  else andThen (startLoop endAddr .lce n s) fun s1 => .next { s1 with lcntr := n }

end Sys2Proof.Machine
end

