-- ==== Sys2Proof/Machine/Agents.lean ====
section
/-! DEFINITION. What moves between instructions: the environment (spec/60_exceptions.md R253, spec/20_memory.md R74), the flag
pins (R290, R291), the timer (R280 to R282); the fetch (20_memory R62); which interrupt may be taken (60_exceptions R262);
and the comparison that 10_state R46 asks for after a MODE1 write. -/

namespace Sys2Proof.Machine

/-! ### The environment -/

/-- The interrupt that a source outside the core latches (60_exceptions R253, R254). -/
def EnvSource.interrupt : EnvSource → Interrupt
  | .irq2 => .irq2i | .irq1 => .irq1i | .irq0 => .irq0i | .virpt => .virpti | .lsrq => .lsrqi | .iicd => .iicdi
  | .sp0 => .sp0i | .sp1 => .sp1i | .sp2 => .sp2i | .sp3 => .sp3i
  | .ep0 => .ep0i | .ep1 => .ep1i | .ep2 => .ep2i | .ep3 => .ep3i
  | .lp0 => .lp0i | .lp1 => .lp1i | .spir => .spiri | .spit => .spiti

/-- The word is marked `shared` on some bus and holds no instruction (20_memory R74). -/
def State.sharedAt (s : State) (a : Word) : Bool :=
  !s.holdsCode a && (s.kindAt .dm a == some .shared || s.kindAt .pm a == some .shared)

/-- A word that the environment writes: only a `shared` one changes (20_memory R74). -/
def envWrite (s : State) (w : Word × Word) : State :=
  if s.sharedAt w.1 then { s with mem := Memory.writeWord s.mem w.1 w.2 } else s

/-- One move of the environment (10_state R10). -/
def envMove (mv : EnvMove) (s : State) : State :=
  let s1 := mv.latches.foldl (fun t src => latch src.interrupt t) s
  let s2 := mv.writes.foldl envWrite s1
  { s2 with flagPins := mv.pins.getD s2.flagPins }

/-- The environment's move at this step, if it has one left. -/
def envStep (s : State) : State :=
  match s.env with
  | [] => s
  | mv :: rest => envMove mv { s with env := rest }

/-! ### Flag pins -/

/-- The bits FLG0-3 of ASTAT whose flag is an input (60_exceptions R290). -/
def State.inputFlags (s : State) : Word := flgMask &&& ~~~(s.mode2 <<< 4)

/-- The value bits of IOFLAG whose flag is an input (10_state R48, log 15). -/
def State.inputIoflags (s : State) : Word := 0x000000FF &&& ~~~(s.ioflag >>> 8)

/-- The input flags follow their pins (60_exceptions R290, R291). -/
def samplePins (s : State) : State :=
  { s with
    astat := mergeBits s.inputFlags s.astat (s.flagPins.setWidth 32 <<< 19)
    ioflag := mergeBits s.inputIoflags s.ioflag (s.flagPins.setWidth 32 >>> 4) }

/-! ### The timer -/

/-- `TimerStep` (60_exceptions R281, R282). -/
def timerStep (s : State) : State :=
  if s.tcount = 0 then latch .tmzhi (latch .tmzli { s with tcount := s.tperiod, timexp := 4 })
  else { s with tcount := s.tcount - 1 }

/-- One instruction cycle: TIMEXP's 4 cycles run down (10_state R51), then the timer's step if it is enabled
(60_exceptions R280). -/
def cycleStep (s : State) : State :=
  let s1 := { s with timexp := s.timexp - 1 }
  if s1.timen then timerStep s1 else s1

def cycles : Nat → State → State
  | 0, s => s
  | n + 1, s => cycles n (cycleStep s)

/-- The instruction cycles of one step: at least one, otherwise free (60_exceptions R281, D32, log 12). -/
def runCycles (s : State) : State :=
  if !s.timen && s.timexp == 0 then s else cycles (1 + Config.extraCycles s.cycle) s

/-- Everything that happens before the core's own step (log 32). -/
def agents (s : State) : State :=
  let s1 := runCycles (samplePins (envStep s))
  { s1 with cycle := s1.cycle + 1 }

/-! ### Which interrupt may be taken -/

/-- Nothing is in service, or nesting is on and `n` has the higher priority (60_exceptions R262). -/
def State.nestingAllows (s : State) (n : Interrupt) : Bool :=
  match s.isrv with
  | [] => true
  | h :: _ => s.nestm && decide (n.offset < h.offset)

/-- The takeable interrupt of highest priority (60_exceptions R262, R260). -/
def State.takeable (s : State) : Option Interrupt :=
  if s.dly.isSome || s.mode1Wrote then none
  else Interrupt.byPriority.find? fun n => s.latched n && s.enabled n && s.nestingAllows n

/-! ### Fetch and the MODE1 latency -/

/-- `Fetch(pc)` (20_memory R62, 30_encoding R96). -/
def State.fetch (s : State) : Host.Outcome Instr Fault Refusal :=
  match s.codeBytes s.pc with
  | none => .fault .fetchUnmapped
  | some bs =>
    match decodeBytes bs with
    | .ok (i, _) => .next i
    | .error e => .fault (.undecodable e)

/-- The outcome of an instruction run under the old and under the new MODE1: their common result, else a fault
(10_state R46). `act` is the MODE1 value in force afterwards. -/
def agree (act : Word) (old new : Result) : Result :=
  match old, new with
  | .next a, .next b => if { a with mode1Act := act } = b then .next b else .fault .mode1Latency
  | .fault r, .fault r' => if r = r' then .fault r else .fault .mode1Latency
  | .refused r, .refused r' => if r = r' then .refused r else .fault .mode1Latency
  | _, _ => .fault .mode1Latency

/-- An instruction's outcome with the latency of MODE1 (10_state R46): directly after a write it runs under both values,
else under the value in force. -/
def withLatency (instr : State → Result) (s : State) : Result :=
  let base := { s with mode1Wrote := false }
  if s.mode1Wrote then agree s.mode1 (instr base) (instr { base with mode1Act := s.mode1 })
  else instr base

/-! ### The core's step -/

/-- How long the takeable interrupt waits: what is left, or a free number of steps when it has just become takeable
(60_exceptions R262, log 13); an idle core does not wait (R262). -/
def State.irqWaitNow (s : State) : Nat := if s.idle then 0 else s.irqWait.getD (Config.irqDelay s.cycle)

/-- `CoreStep` (43_program_flow R200), with `instr` the rules of the instructions. -/
def coreStep (instr : Instr → State → Result) (s : State) : Result :=
  let runOne := fun t => andThen t.fetch fun i => withLatency (instr i) t
  match s.takeable with
  | some n =>
    match s.irqWaitNow with
    | 0 => takeInterrupt n s
    | k + 1 => runOne { s with irqWait := some k }
  | none => if s.idle then .next { s with irqWait := none } else runOne { s with irqWait := none }

/-- The term with number `n` placed by the launch (20_memory R75, log 1). -/
def placeCode (p : PAddr) (n : IWord) (s : State) : State :=
  { s with code := Memory.writeBytes s.code (codeCell p) (wordBytes n) }

/-- The 48-bit program word `w` placed by the launch (20_memory R75). -/
def placeWord (p : PAddr) (w : IWord) (s : State) : State := placeCode p (Config.wordCode.symm w) s

end Sys2Proof.Machine
end

