-- ==== Sys2Proof/Machine/ComputeMove.lean ====
section
/-! DEFINITION. Types 1 to 7: compute and move (spec/41_compute_move.md). -/

namespace Sys2Proof.Machine

/-- Type 1's conflict: both accesses in one word, one of them a store (20_memory R76). -/
def dualConflict (a1 a2 : Word) (dmDir pmDir : Dir) : Bool :=
  decide (a1 = a2) && (dmDir == .store || pmDir == .store)

/-- One access of type 1: a store of `v`, or a load whose value is kept (41_compute_move R143). -/
def dualAccess (dir : Dir) (bus : Bus) (a v : Word) (s : State) : Host.Outcome (Word × State) Fault Refusal :=
  match dir with
  | .store => andThen (memWrite bus a v s) fun s1 => .next (v, s1)
  | .load => andThen (memRead s bus a) fun x => .next (x, s)

/-- The register write of one move of type 1. -/
def dualResult (dir : Dir) (d : DReg) (x : Word) (s : State) : State :=
  match dir with
  | .store => s
  | .load => setR d x s

/-- Type 1: `compute, DM(Ia,Mb) = dreg1 | dreg1 = DM(Ia,Mb), PM(Ic,Md) = dreg2 | dreg2 = PM(Ic,Md)` (R143). -/
def execComputeDualMove (c : Compute) (dmDir : Dir) (ia mb : Fin 8) (d1 : DReg) (pmDir : Dir) (ic md : Fin 8) (d2 : DReg)
    (s : State) : Result :=
  runPlain .plain s <|
    andThen (modifyIndex (dagIndex .dm ia) (s.getM (dagIndex .dm mb)) s) fun s1 =>
    andThen (modifyIndex (dagIndex .pm ic) (s.getM (dagIndex .pm md)) s1) fun s2 =>
    if dualConflict (s.postAddr (dagIndex .dm ia)) (s.postAddr (dagIndex .pm ic)) dmDir pmDir then .fault .dualAccessConflict
    else
      andThen (dualAccess dmDir .dm (s.postAddr (dagIndex .dm ia)) (s.getR d1) s2) fun (x1, s3) =>
      andThen (dualAccess pmDir .pm (s.postAddr (dagIndex .pm ic)) (s.getR d2) s3) fun (x2, s4) =>
      .next (dualResult pmDir d2 x2 (dualResult dmDir d1 x1 (applyCompute .compute c s.computeInput s4)))

/-- Type 2: `IF condition compute` (R144). -/
def execIfCompute (cond : CondCode) (c : Compute) (s : State) : Result :=
  runPlain .plain s <| whenCond cond s <| .next (applyCompute .compute c s.computeInput s)

/-- Type 3a: post-modify store of a universal register (R145). -/
def execStorePostUreg (cond : CondCode) (c : Compute) (bus : Bus) (i m : Fin 8) (u : UReg) (s : State) : Result :=
  runPlain .plain s <| whenCond cond s <| andThen (s.readUreg u) fun v =>
    storeMove .post bus (dagIndex bus i) (s.getM (dagIndex bus m)) v .compute c s

/-- Type 3b: pre-modify store of a universal register (R146). -/
def execStorePreUreg (cond : CondCode) (c : Compute) (bus : Bus) (i m : Fin 8) (u : UReg) (s : State) : Result :=
  runPlain .plain s <| whenCond cond s <| andThen (s.readUreg u) fun v =>
    storeMove .pre bus (dagIndex bus i) (s.getM (dagIndex bus m)) v .compute c s

/-- Type 3c: post-modify load of a universal register (R147). -/
def execLoadPostUreg (cond : CondCode) (c : Compute) (bus : Bus) (i m : Fin 8) (u : UReg) (s : State) : Result :=
  runPlain .plain s <| whenCond cond s <|
    loadMove .post bus (dagIndex bus i) (s.getM (dagIndex bus m)) u .compute c s

/-- Type 3d: pre-modify load of a universal register (R148). -/
def execLoadPreUreg (cond : CondCode) (c : Compute) (bus : Bus) (i m : Fin 8) (u : UReg) (s : State) : Result :=
  runPlain .plain s <| whenCond cond s <|
    loadMove .pre bus (dagIndex bus i) (s.getM (dagIndex bus m)) u .compute c s

/-- Type 4a: post-modify store of a data register, 6-bit immediate (R149). -/
def execStorePostData6 (cond : CondCode) (c : Compute) (bus : Bus) (i : Fin 8) (data6 : BitVec 6) (d : DReg) (s : State) :
    Result :=
  runPlain .plain s <| whenCond cond s <|
    storeMove .post bus (dagIndex bus i) (data6Value data6) (s.getR d) .compute c s

/-- Type 4b: pre-modify store of a data register, 6-bit immediate (R150). -/
def execStorePreData6 (cond : CondCode) (c : Compute) (bus : Bus) (i : Fin 8) (data6 : BitVec 6) (d : DReg) (s : State) :
    Result :=
  runPlain .plain s <| whenCond cond s <|
    storeMove .pre bus (dagIndex bus i) (data6Value data6) (s.getR d) .compute c s

/-- Type 4c: post-modify load of a data register, 6-bit immediate (R151). -/
def execLoadPostData6 (cond : CondCode) (c : Compute) (bus : Bus) (i : Fin 8) (data6 : BitVec 6) (d : DReg) (s : State) :
    Result :=
  runPlain .plain s <| whenCond cond s <|
    loadMove .post bus (dagIndex bus i) (data6Value data6) (.r d) .compute c s

/-- Type 4d: pre-modify load of a data register, 6-bit immediate (R152). -/
def execLoadPreData6 (cond : CondCode) (c : Compute) (bus : Bus) (i : Fin 8) (data6 : BitVec 6) (d : DReg) (s : State) :
    Result :=
  runPlain .plain s <| whenCond cond s <|
    loadMove .pre bus (dagIndex bus i) (data6Value data6) (.r d) .compute c s

/-- Type 5: `IF condition compute, ureg1 = ureg2` (R153). -/
def execMoveUreg (cond : CondCode) (c : Compute) (u1 u2 : UReg) (s : State) : Result :=
  runPlain .plain s <| whenCond cond s <| andThen (s.readUreg u2) fun v =>
    writeUreg u1 v (applyCompute .compute c s.computeInput s)

/-- Type 6a: immediate shift beside a post-modify store (R154). -/
def execShiftStorePost (cond : CondCode) (sh : Compute) (bus : Bus) (i m : Fin 8) (d : DReg) (s : State) : Result :=
  runPlain .plain s <| whenCond cond s <|
    storeMove .post bus (dagIndex bus i) (s.getM (dagIndex bus m)) (s.getR d) .shiftimm sh s

/-- Type 6b: immediate shift beside a post-modify load (R155). -/
def execShiftLoadPost (cond : CondCode) (sh : Compute) (bus : Bus) (i m : Fin 8) (d : DReg) (s : State) : Result :=
  runPlain .plain s <| whenCond cond s <|
    loadMove .post bus (dagIndex bus i) (s.getM (dagIndex bus m)) (.r d) .shiftimm sh s

/-- Type 7: `IF condition compute, MODIFY (Ia,Mb) | (Ic,Md)` (R156). -/
def execModifyReg (cond : CondCode) (c : Compute) (i m : Fin 16) (s : State) : Result :=
  runPlain .plain s <| whenCond cond s <| andThen (modifyIndex i (s.getM m) s) fun s1 =>
    .next (applyCompute .compute c s.computeInput s1)

end Sys2Proof.Machine
end

