-- ==== Sys2Proof/Machine/Flow.lean ====
section
/-! DEFINITION. Program flow: JUMP, CALL, RTS, RTI, DO, NOP, IDLE (spec/43_program_flow.md). -/

namespace Sys2Proof.Machine

/-- `IF condition JUMP <addr24>` (R204). -/
def execJumpDirect (cond : CondCode) (addr : PAddr) (db la ci : Bool) (s : State) : Result :=
  run (.jump la db) s <| branchEffects cond .none s (jumpTaken addr db la ci s)

/-- `IF condition JUMP (PC,<reladdr24>)` (R205). -/
def execJumpRel (cond : CondCode) (off : BitVec 24) (db la ci : Bool) (s : State) : Result :=
  run (.jump la db) s <| branchEffects cond .none s (jumpTaken (relTarget s.pc off) db la ci s)

/-- `IF condition CALL <addr24>` (R206). -/
def execCallDirect (cond : CondCode) (addr : PAddr) (db : Bool) (s : State) : Result :=
  run .flow s <| branchEffects cond .none s (callTaken addr db s)

/-- `IF condition CALL (PC,<reladdr24>)` (R207). -/
def execCallRel (cond : CondCode) (off : BitVec 24) (db : Bool) (s : State) : Result :=
  run .flow s <| branchEffects cond .none s (callTaken (relTarget s.pc off) db s)

/-- `IF condition JUMP (Md,Ic), compute | ELSE compute` (R208). -/
def execJumpInd (cond : CondCode) (md ic : Fin 8) (db la ci : Bool) (clause : Clause) (s : State) : Result :=
  run (.jump la db) s <| andThen (s.indirectTarget md ic) fun t =>
    branchEffects cond clause s (jumpTaken t db la ci s)

/-- `IF condition JUMP (PC,<reladdr6>), compute | ELSE compute` (R209). -/
def execJumpShort (cond : CondCode) (off : BitVec 6) (db la ci : Bool) (clause : Clause) (s : State) : Result :=
  run (.jump la db) s <| branchEffects cond clause s (jumpTaken (relTarget s.pc off) db la ci s)

/-- `IF condition CALL (Md,Ic), compute | ELSE compute` (R210). -/
def execCallInd (cond : CondCode) (md ic : Fin 8) (db : Bool) (clause : Clause) (s : State) : Result :=
  run .flow s <| andThen (s.indirectTarget md ic) fun t =>
    branchEffects cond clause s (callTaken t db s)

/-- `IF condition CALL (PC,<reladdr6>), compute | ELSE compute` (R211). -/
def execCallShort (cond : CondCode) (off : BitVec 6) (db : Bool) (clause : Clause) (s : State) : Result :=
  run .flow s <| branchEffects cond clause s (callTaken (relTarget s.pc off) db s)

/-- A branch, or else the compute and the DM move (R212, R213). -/
def jumpElseMove (cond : CondCode) (t : PAddr) (c : Compute) (dir : Dir) (ia mb : Fin 8) (d : DReg) (s : State) :
    Host.Outcome (State × Yield) Fault Refusal :=
  if s.cond cond then .next (s, .branch t)
  else andThen (dmMove dir ia mb d c s) fun s1 => .next (s1, .noBranch)

/-- `IF condition JUMP (Md,Ic), ELSE compute, move` (R212). -/
def execJumpIndMove (cond : CondCode) (md ic : Fin 8) (c : Compute) (dir : Dir) (ia mb : Fin 8) (d : DReg) (s : State) :
    Result :=
  run (.jump false false) s <| andThen (s.indirectTarget md ic) fun t => jumpElseMove cond t c dir ia mb d s

/-- `IF condition JUMP (PC,<reladdr6>), ELSE compute, move` (R213). -/
def execJumpShortMove (cond : CondCode) (off : BitVec 6) (c : Compute) (dir : Dir) (ia mb : Fin 8) (d : DReg) (s : State) :
    Result :=
  run (.jump false false) s <| jumpElseMove cond (relTarget s.pc off) c dir ia mb d s

/-- `IF condition RTS, compute | ELSE compute` (R214). -/
def execRts (cond : CondCode) (db lr : Bool) (clause : Clause) (s : State) : Result :=
  run .flow s <| branchEffects cond clause s (rtsTaken db lr s)

/-- `IF condition RTI, compute | ELSE compute` (R215). DEDUCED (log 23): ASTAT restored from the status stack replaces the
flags of the operation ("otherwise compute's"), and the operation latches its arithmetic interrupts (41_compute_move
R141), although R215 lists no interrupt. -/
def execRti (cond : CondCode) (db : Bool) (clause : Clause) (s : State) : Result :=
  run .flow s <|
    let s1 := applyCompute .compute (clauseOperation clause (s.cond cond)) s.computeInput s
    if s.cond cond then andThen (returnFromInterrupt s1) fun (t, s2) => .next (s2, branchTo db true t)
    else .next (s1, .noBranch)

/-- `LCNTR = <data16>, DO … UNTIL LCE` (R216). -/
def execDoCountImm (count : BitVec 16) (target : Target) (s : State) : Result :=
  runPlain .flow s <| countedLoop (count.setWidth 32) (s.loopTarget target) s

/-- `LCNTR = ureg, DO … UNTIL LCE` (R217). -/
def execDoCountUreg (u : UReg) (target : Target) (s : State) : Result :=
  runPlain .flow s <| andThen (s.readUreg u) fun n => countedLoop n (s.loopTarget target) s

/-- `DO … UNTIL termination` (R218). -/
def execDoUntil (target : Target) (term : CondCode) (s : State) : Result :=
  runPlain .flow s <| startLoop (s.loopTarget target) term 0 s

/-- `NOP` (R221). -/
def execNop (s : State) : Result := runPlain .plain s <| .next s

/-- `IDLE` (R222). -/
def execIdle (s : State) : Result := runPlain .notInSlot s <| .next { s with idle := true }

end Sys2Proof.Machine
end

