-- ==== Sys2Proof/Machine/ImmediateMove.lean ====
section
/-! DEFINITION. Types 14 to 19a: immediate move, modify and bit reverse (spec/42_immediate_move.md). -/

namespace Sys2Proof.Machine

/-- Type 14a: store of a universal register to a direct address (R170, 40_dag_addressing R113). -/
def execStoreDirect (bus : Bus) (addr : Word) (u : UReg) (s : State) : Result :=
  runPlain .plain s <| andThen (s.readUreg u) fun v => memWrite bus addr v s

/-- Type 14b: load of a universal register from a direct address (R171). -/
def execLoadDirect (bus : Bus) (addr : Word) (u : UReg) (s : State) : Result :=
  runPlain .plain s <| andThen (memRead s bus addr) fun v => writeUreg u v s

/-- Type 15a: pre-modify store of a universal register, 32-bit immediate (R172). -/
def execStorePreData32 (bus : Bus) (i : Fin 8) (data : Word) (u : UReg) (s : State) : Result :=
  runPlain .plain s <| andThen (s.readUreg u) fun v =>
    storeMove .pre bus (dagIndex bus i) data v .compute .none s

/-- Type 15b: pre-modify load of a universal register, 32-bit immediate (R173). -/
def execLoadPreData32 (bus : Bus) (i : Fin 8) (data : Word) (u : UReg) (s : State) : Result :=
  runPlain .plain s <| loadMove .pre bus (dagIndex bus i) data u .compute .none s

/-- Type 16: post-modify store of a 32-bit immediate (R174). -/
def execStorePostImm (bus : Bus) (i m : Fin 8) (data : Word) (s : State) : Result :=
  runPlain .plain s <| storeMove .post bus (dagIndex bus i) (s.getM (dagIndex bus m)) data .compute .none s

/-- Type 17: load of a universal register with a 32-bit immediate (R175). -/
def execLoadImm (u : UReg) (data : Word) (s : State) : Result :=
  runPlain .plain s <| writeUreg u data s

/-- Type 19: `MODIFY (I,<data32>)` (R182). -/
def execModifyImm (i : Fin 16) (data : Word) (s : State) : Result :=
  runPlain .plain s <| modifyIndex i data s

/-- Type 19a: `BITREV (I,<data32>)` (R183, 40_dag_addressing R120). -/
def execBitrev (i : Fin 16) (data : Word) (s : State) : Result :=
  runPlain .plain s <| .next (setI i (bitrev32 (s.getI i + data)) s)

end Sys2Proof.Machine
end

