-- ==== Sys2Proof/Machine/System.lean ====
section
/-! DEFINITION. System-register bit manipulation and the status-stack instructions (spec/44_system_register.md). -/

namespace Sys2Proof.Machine

/-- `BIT SET` (R231). -/
def execBitSet (r : SReg) (data : Word) (s : State) : Result :=
  runPlain .plain s <| changeSreg r (· ||| data) s

/-- `BIT CLR` (R232). -/
def execBitClr (r : SReg) (data : Word) (s : State) : Result :=
  runPlain .plain s <| changeSreg r (· &&& ~~~data) s

/-- `BIT TGL` (R233). -/
def execBitTgl (r : SReg) (data : Word) (s : State) : Result :=
  runPlain .plain s <| changeSreg r (· ^^^ data) s

/-- `BIT TST` (R234). -/
def execBitTst (r : SReg) (data : Word) (s : State) : Result :=
  runPlain .plain s <| testSreg r (fun v => decide (v &&& data = data)) s

/-- `BIT XOR` (R235). -/
def execBitXor (r : SReg) (data : Word) (s : State) : Result :=
  runPlain .plain s <| testSreg r (fun v => decide (v = data)) s

/-- `PUSH STS` (R240). -/
def execPushSts (s : State) : Result := runPlain .notInSlot s <| pushStatus s

/-- `POP STS` (R241). -/
def execPopSts (s : State) : Result := runPlain .popSts s <| popStatus s

end Sys2Proof.Machine
end

