-- ==== Sys2Proof/Machine/Dispatch.lean ====
section
/-! DEFINITION. One arm per constructor of Instr, in the order of spec/opcode_table.json. -/

namespace Sys2Proof.Machine

def exec (i : Instr) (s : State) : Host.Outcome State Fault Refusal :=
  match i with
  | .computeDualMove c dmDir ia mb dreg1 pmDir ic md dreg2 => Sys2Proof.Machine.execComputeDualMove c dmDir ia mb dreg1 pmDir ic md dreg2 s
  | .ifCompute cond c => Sys2Proof.Machine.execIfCompute cond c s
  | .storePostUreg cond c bus ix mx u => Sys2Proof.Machine.execStorePostUreg cond c bus ix mx u s
  | .storePreUreg cond c bus ix mx u => Sys2Proof.Machine.execStorePreUreg cond c bus ix mx u s
  | .loadPostUreg cond c bus ix mx u => Sys2Proof.Machine.execLoadPostUreg cond c bus ix mx u s
  | .loadPreUreg cond c bus ix mx u => Sys2Proof.Machine.execLoadPreUreg cond c bus ix mx u s
  | .storePostData6 cond c bus ix data6 d => Sys2Proof.Machine.execStorePostData6 cond c bus ix data6 d s
  | .storePreData6 cond c bus ix data6 d => Sys2Proof.Machine.execStorePreData6 cond c bus ix data6 d s
  | .loadPostData6 cond c bus ix data6 d => Sys2Proof.Machine.execLoadPostData6 cond c bus ix data6 d s
  | .loadPreData6 cond c bus ix data6 d => Sys2Proof.Machine.execLoadPreData6 cond c bus ix data6 d s
  | .moveUreg cond c u1 u2 => Sys2Proof.Machine.execMoveUreg cond c u1 u2 s
  | .shiftStorePost cond sh bus ix mx d => Sys2Proof.Machine.execShiftStorePost cond sh bus ix mx d s
  | .shiftLoadPost cond sh bus ix mx d => Sys2Proof.Machine.execShiftLoadPost cond sh bus ix mx d s
  | .modifyReg cond c ix mx => Sys2Proof.Machine.execModifyReg cond c ix mx s
  | .storeDirect bus addr u => Sys2Proof.Machine.execStoreDirect bus addr u s
  | .loadDirect bus addr u => Sys2Proof.Machine.execLoadDirect bus addr u s
  | .storePreData32 bus ix data u => Sys2Proof.Machine.execStorePreData32 bus ix data u s
  | .loadPreData32 bus ix data u => Sys2Proof.Machine.execLoadPreData32 bus ix data u s
  | .storePostImm bus ix mx data => Sys2Proof.Machine.execStorePostImm bus ix mx data s
  | .loadImm u data => Sys2Proof.Machine.execLoadImm u data s
  | .modifyImm ix data => Sys2Proof.Machine.execModifyImm ix data s
  | .bitrev ix data => Sys2Proof.Machine.execBitrev ix data s
  | .jumpDirect cond addr db la ci => Sys2Proof.Machine.execJumpDirect cond addr db la ci s
  | .jumpRel cond off db la ci => Sys2Proof.Machine.execJumpRel cond off db la ci s
  | .callDirect cond addr db => Sys2Proof.Machine.execCallDirect cond addr db s
  | .callRel cond off db => Sys2Proof.Machine.execCallRel cond off db s
  | .jumpInd cond md ic db la ci clause => Sys2Proof.Machine.execJumpInd cond md ic db la ci clause s
  | .jumpShort cond off db la ci clause => Sys2Proof.Machine.execJumpShort cond off db la ci clause s
  | .callInd cond md ic db clause => Sys2Proof.Machine.execCallInd cond md ic db clause s
  | .callShort cond off db clause => Sys2Proof.Machine.execCallShort cond off db clause s
  | .jumpIndMove cond md ic c dir ia mb d => Sys2Proof.Machine.execJumpIndMove cond md ic c dir ia mb d s
  | .jumpShortMove cond off c dir ia mb d => Sys2Proof.Machine.execJumpShortMove cond off c dir ia mb d s
  | .rts cond db lr clause => Sys2Proof.Machine.execRts cond db lr clause s
  | .rti cond db clause => Sys2Proof.Machine.execRti cond db clause s
  | .doCountImm count target => Sys2Proof.Machine.execDoCountImm count target s
  | .doCountUreg u target => Sys2Proof.Machine.execDoCountUreg u target s
  | .doUntil target term => Sys2Proof.Machine.execDoUntil target term s
  | .nop => Sys2Proof.Machine.execNop s
  | .idle => Sys2Proof.Machine.execIdle s
  | .bitSet r data => Sys2Proof.Machine.execBitSet r data s
  | .bitClr r data => Sys2Proof.Machine.execBitClr r data s
  | .bitTgl r data => Sys2Proof.Machine.execBitTgl r data s
  | .bitTst r data => Sys2Proof.Machine.execBitTst r data s
  | .bitXor r data => Sys2Proof.Machine.execBitXor r data s
  | .pushSts => Sys2Proof.Machine.execPushSts s
  | .popSts => Sys2Proof.Machine.execPopSts s

end Sys2Proof.Machine
end

