-- ==== Sys2Proof/Machine/Step.lean ====
section
/-! DEFINITION. One step of the machine (spec/10_state.md R10, spec/43_program_flow.md R200). -/

namespace Sys2Proof.Machine

/-- One step: the agents around the core, then the core (log 32). -/
def step (s : State) : Host.Outcome State Fault Refusal := coreStep exec (agents s)

/-- The instruction with number `w` (log 1) placed at `pc`, awake and with the next step free for it: this stands for the launch
that loads a program (log 29). -/
def State.withFetchWord (s : State) (_nbits w : Nat) : State :=
  { placeCode s.pc (BitVec.ofNat 48 w) s with idle := false, irqWait := some 1 }

end Sys2Proof.Machine
end

