-- ==== Sys2Proof/Safety.lean ====
section
/-! DEFINITION. The terms in which statements about the machine are made: where an instruction may stand and how it ends, the
effects of the spec's pseudocode as functions of the state, what each instruction may write, the invariants of a run, and
the end of a run (spec/70_reset_and_hazards.md R323). -/

namespace Sys2Proof.Safety
open Sys2Proof.Machine

/-! ### Where an instruction stands and how it ends -/

/-- Neither SIMD nor a broadcast mode is in force: MODE1 bits 21 to 23 (10_state R37, R47). -/
abbrev Sisd (s : State) : Prop := s.mode1Act &&& 0x00E00000 = 0

/-- The instruction at `pc` is the last one of an active loop, the innermost or one around it (43_program_flow R223). -/
abbrev EndsLoop (s : State) : Prop := ∃ e ∈ s.loopStack, s.pc = e.endAddr

/-- The instruction at `pc` is the last one of the innermost active loop (43_program_flow R200, R219). -/
abbrev EndsInnermost (s : State) : Prop := s.loopStack.head?.map (·.endAddr) = some s.pc

/-- The instruction at `pc` is one of the last three of an active loop, the innermost or one around it
(43_program_flow R220). -/
abbrev InTail (s : State) : Prop :=
  ∃ e ∈ s.loopStack, e.endAddr.toNat ≤ s.pc.toNat + 2 ∧ s.pc.toNat ≤ e.endAddr.toNat

/-- An instruction at `pc` that does not branch can end (43_program_flow R200): the last one of an active loop stands in
no delay slot (R223), and at the innermost loop's end the PC stack's top is the loop's entry (R219). -/
abbrev CanEnd (s : State) : Prop :=
  (EndsLoop s → s.dly = none) ∧
    (∀ e ∈ s.loopStack.head?, s.pc = e.endAddr → s.pcStack.head?.map (·.tag) = some .loop)

/-- What an instruction that never branches needs of its place. -/
abbrev Ready (s : State) : Prop := Sisd s ∧ CanEnd s

/-- What `IDLE` and `PUSH STS` need of their place: no delay slot (43_program_flow R223). -/
abbrev ReadyOutside (s : State) : Prop := Ready s ∧ s.dly = none

/-- What a branch or a `DO` needs of its place: no delay slot (43_program_flow R223), not in the last three instructions
of a loop (R220). -/
abbrev ReadyToBranch (s : State) : Prop := Sisd s ∧ s.dly = none ∧ ¬ InTail s

/-- A `JUMP` with these modifiers may stand there: only `(LA)` without `(DB)` near a loop's end (43_program_flow R220). -/
abbrev MayJump (la db : Bool) (s : State) : Prop := Sisd s ∧ s.dly = none ∧ (InTail s → la = true ∧ db = false)

/-- What a `JUMP` with these modifiers needs of its place, taken or not. -/
abbrev ReadyToJump (la db : Bool) (s : State) : Prop := MayJump la db s ∧ CanEnd s

/-- The truth of a condition code after IF (10_state R36): BTF for TF, FLGn for FLAGn_IN, always for TRUE, the parameter
CondEval for the codes that the spec leaves open (log 3); `NOT LCE` is false exactly when the innermost loop is a counted
one with no pass left, and free outside a counted loop (log 22). -/
def truth (s : State) (c : CondCode) : Bool :=
  let notLce := match s.loopStack.head? with
    | some ⟨_, .lce, count⟩ => count != 0
    | _ => Config.condEval .notLce s.astat s.mode1Act
  match c with
  | .always => true
  | .tf => s.astat.getLsbD 18
  | .notTf => !s.astat.getLsbD 18
  | .flag0 => s.astat.getLsbD 19
  | .flag1 => s.astat.getLsbD 20
  | .flag2 => s.astat.getLsbD 21
  | .flag3 => s.astat.getLsbD 22
  | .notFlag0 => !s.astat.getLsbD 19
  | .notFlag1 => !s.astat.getLsbD 20
  | .notFlag2 => !s.astat.getLsbD 21
  | .notFlag3 => !s.astat.getLsbD 22
  | .lce => !notLce
  | .notLce => notLce
  | c => Config.condEval c s.astat s.mode1Act

/-- The operation of a branch clause: of a plain one when the branch is taken, of an `ELSE` when it is not
(43_program_flow section 3). -/
def clausePart (clause : Clause) (taken : Bool) : Compute :=
  match clause with
  | .none => .none
  | .withCompute c => if taken then c else .none
  | .elseCompute c => if taken then .none else c

/-- An indirect branch has a target: not through I8 under BR8 (MODE1 bit 0), 24 bits (43_program_flow R208, 40_dag_addressing R119). -/
abbrev TargetOk (s : State) (md ic : Fin 8) : Prop :=
  (ic.val = 0 → s.mode1Act.getLsbD 0 = false) ∧ (s.getI (dagIndex .pm ic) + s.getM (dagIndex .pm md)).toNat < 2 ^ 24

/-- The truth of a loop termination at the end of a pass: never for FOREVER, else a free value at this step
(43_program_flow R218, R219, log 21). -/
def passIsLast (s : State) (c : CondCode) : Bool := c != .always && Config.loopTest c s.cycle

/-- Loop-end processing (43_program_flow R219). -/
def passEnd (s : State) : State :=
  match s.loopStack, s.pcStack with
  | e :: loops, p :: below =>
    if e.term = .lce then
      if e.count = 1 then { s with loopStack := loops, pcStack := below, pc := s.pc + 1 }
      else { s with loopStack := { e with count := e.count - 1 } :: loops, pc := p.addr }
    else if passIsLast s e.term then { s with loopStack := loops, pcStack := below, pc := s.pc + 1 }
    else { s with pc := p.addr }
  | _, _ => s

/-- The end of an instruction that did not branch (43_program_flow R200): the delay slots count down, a loop's end is
processed, else `pc + 1`. -/
def advance (s : State) : State :=
  match s.dly with
  | some d =>
    match d.left with
    | .two => { s with dly := some { d with left := .one }, pc := s.pc + 1 }
    | .one => { s with dly := none, pc := d.target }
  | none => if EndsInnermost s then passEnd s else { s with pc := s.pc + 1 }

/-- The end of a taken branch (43_program_flow R201, R202). -/
def depart (db byRti : Bool) (t : PAddr) (s : State) : State :=
  if db then { s with dly := some ⟨.two, t, byRti⟩, pc := s.pc + 1 } else { s with pc := t }

/-! ### Which copy MODE1 selects -/

/-- The alternate copy of R[n] is selected: bit 10 (SRRFL) for R0-R7, bit 7 (SRRFH) for R8-R15 (10_state R12, R37). -/
def altData (s : State) (n : DReg) : Bool := s.mode1Act.getLsbD (if n.val < 8 then 10 else 7)

/-- The alternate I, M, L and B of number n are selected: bits 4, 3, 6, 5 (SRD1L, SRD1H, SRD2L, SRD2H) for the four groups
of four (10_state R15, R37). -/
def altDag (s : State) (n : Fin 16) : Bool :=
  s.mode1Act.getLsbD (if n.val < 4 then 4 else if n.val < 8 then 3 else if n.val < 12 then 6 else 5)

/-- The alternate MR is selected: bit 2 (SRCU) (10_state R13, R37). -/
def altMr (s : State) : Bool := s.mode1Act.getLsbD 2

/-- R[n] (10_state R12). -/
def dataRead (s : State) (n : DReg) : Word := if altData s n then s.regsAlt[n] else s.regs[n]

/-- R[n] written (10_state R12). -/
def dataWritten (n : DReg) (v : Word) (s : State) : State :=
  if altData s n then { s with regsAlt := s.regsAlt.set n v } else { s with regs := s.regs.set n v }

/-- The copy of the DAG registers of number n (10_state R15). -/
def dagRead (s : State) (n : Fin 16) : DagRegs := if altDag s n then s.dagAlt else s.dag

/-- The copy of the DAG registers of number n replaced (10_state R15). -/
def dagReplaced (n : Fin 16) (d : DagRegs) (s : State) : State :=
  if altDag s n then { s with dagAlt := d } else { s with dag := d }

/-- What an operation reads (41_compute_move R141): the selected data registers and MR, ASTAT, and of MODE1 the bits ALUSAT
(13), TRUNC (15), RND32 (16) and SRCU (2) (10_state R37). -/
def operandsRead (s : State) : Config.ComputeInput where
  regs := Vector.ofFn (dataRead s)
  mr := if altMr s then s.mrAlt else s.mr
  astat := s.astat
  alusat := s.mode1Act.getLsbD 13
  trunc := s.mode1Act.getLsbD 15
  rnd32 := s.mode1Act.getLsbD 16
  srcu := s.mode1Act.getLsbD 2

/-! ### Addressing -/

/-- Circular buffering is active for index `n`: CBUFEN (MODE1 bit 24) with a length that is not 0 (40_dag_addressing R115,
10_state R37). -/
def circularOn (s : State) (n : Fin 16) : Bool := s.mode1Act.getLsbD 24 && decide (s.getL n ≠ 0)

/-- The old index is in its buffer and the modifier is no longer than it, where circular buffering is active
(40_dag_addressing R116). -/
abbrev IndexOk (s : State) (n : Fin 16) (m : Word) : Prop :=
  circularOn s n = true →
    (s.getB n).toNat ≤ (s.getI n).toNat ∧ (s.getI n).toNat < (s.getB n).toNat + (s.getL n).toNat ∧
      m.toInt.natAbs ≤ (s.getL n).toNat

/-- `I[n] + m` in unbounded integers (40_dag_addressing R116). -/
def indexSum (s : State) (n : Fin 16) (m : Word) : Int := (s.getI n).toNat + m.toInt

/-- The update passes the end of the buffer. -/
def wrapsUp (s : State) (n : Fin 16) (m : Word) : Bool :=
  circularOn s n && decide (0 ≤ m.toInt) && decide (((s.getB n).toNat : Int) + (s.getL n).toNat ≤ indexSum s n m)

/-- The update passes the base of the buffer. -/
def wrapsDown (s : State) (n : Fin 16) (m : Word) : Bool :=
  circularOn s n && decide (m.toInt < 0) && decide (indexSum s n m < (s.getB n).toNat)

/-- `CircUpdate(n, I[n], m)` (40_dag_addressing R116). -/
def circUpdate (s : State) (n : Fin 16) (m : Word) : Word :=
  if wrapsUp s n m then BitVec.ofInt 32 (indexSum s n m - (s.getL n).toNat)
  else if wrapsDown s n m then BitVec.ofInt 32 (indexSum s n m + (s.getL n).toNat)
  else BitVec.ofInt 32 (indexSum s n m)

/-- What a wrap of index `n` sets in IRPTL: bit 20 for I7, bit 21 for I15, nothing else (40_dag_addressing R117). -/
def wrapLatch (s : State) (n : Fin 16) (m : Word) : Word :=
  if wrapsUp s n m || wrapsDown s n m then
    if n.val = 7 then 0x00100000 else if n.val = 15 then 0x00200000 else 0
  else 0

/-- I[n] updated by a post-modify, with the interrupt of a wrap (40_dag_addressing R112, R117). -/
def indexUpdated (n : Fin 16) (m : Word) (s : State) : State :=
  let s1 := setI n (circUpdate s n m) s
  { s1 with irptl := s1.irptl ||| wrapLatch s n m }

/-- What an access form does to I[n] (40_dag_addressing R111, R112). -/
def formUpdated (form : DagForm) (n : Fin 16) (m : Word) (s : State) : State :=
  match form with
  | .post => indexUpdated n m s
  | .pre => s

/-- What an access form needs of I[n]: only a post-modify tests (40_dag_addressing R118). -/
abbrev FormOk (form : DagForm) (s : State) (n : Fin 16) (m : Word) : Prop := form = .post → IndexOk s n m

/-! ### Memory -/

/-- The region of MemMap holds the address (20_memory R63, R75). -/
abbrev Covers (r : Region) (a : Word) : Prop := r.first ≤ a.toNat ∧ a.toNat ≤ r.last

/-- MemMap admits a write of an ordinary word (20_memory R64, R72). -/
abbrev Admits (s : State) (bus : Bus) (a : Word) : Prop :=
  s.holdsCode a = false ∧ (s.kindAt bus a = some .data ∨ s.kindAt bus a = some .shared)

/-- A read of an ordinary word gives `v` (20_memory R63; a `shared` word that the run has not written: R74, log 17). -/
abbrev Holds (s : State) (bus : Bus) (a v : Word) : Prop :=
  Admits s bus a ∧
    (Memory.readWord s.mem a = some v ∨
      Memory.readWord s.mem a = none ∧ s.kindAt bus a = some .shared ∧ v = Config.sharedWord s.cycle a)

/-- The state with a data word written (20_memory R64). -/
def wordStored (a v : Word) (s : State) : State := { s with mem := Memory.writeWord s.mem a v }

/-- What one move of a type 1 instruction needs (41_compute_move R143). -/
abbrev MoveFits (dir : Dir) (s : State) (bus : Bus) (a x : Word) : Prop :=
  (dir = .store → Admits s bus a) ∧ (dir = .load → Holds s bus a x)

/-- The memory write of a move that stores `v`. -/
def moveStored (dir : Dir) (a v : Word) (s : State) : State := if dir = .store then wordStored a v s else s

/-- The register write of a move that loads `x`. -/
def moveLoaded (dir : Dir) (d : DReg) (x : Word) (s : State) : State := if dir = .load then dataWritten d x s else s

/-- A memory cell belongs to none of the words. -/
abbrev Outside (x : Nat) (words : List Word) : Prop := ∀ a ∈ words, x < wordCell a ∨ wordCell a + 4 ≤ x

/-! ### Registers -/

/-- A LIRPTL latch is set and unmasked: bit 14 of IRPTL reads as this (60_exceptions R259). -/
def linkPending (s : State) : Bool :=
  (s.lirptl.getLsbD 0 && s.lirptl.getLsbD 16) || (s.lirptl.getLsbD 1 && s.lirptl.getLsbD 17) ||
    (s.lirptl.getLsbD 2 && s.lirptl.getLsbD 18) || (s.lirptl.getLsbD 3 && s.lirptl.getLsbD 19)

/-- `ureg(u)` of a readable register (10_state R40, R41): MODE1 reads as the value in force (log 10), LADDR as a free value of
the loop stack's top and of what was last written to it (log 18), bit 14 of IRPTL as the summary of LIRPTL (60_exceptions
R259, log 20), bits 27:24 of LIRPTL as free values while an interrupt is in service, else as 0 (R266, log 19). -/
def uregRead (s : State) : UReg → Word
  | .r n => dataRead s n
  | .i n => (dagRead s n).i[n]
  | .m n => (dagRead s n).m[n]
  | .l n => (dagRead s n).l[n]
  | .b n => (dagRead s n).b[n]
  | .tcount => s.tcount
  | .tperiod => s.tperiod
  | .lcntr => s.lcntr
  | .laddr => Config.laddrWord (s.loopStack.head?.map fun e => (e.endAddr, e.term, e.count)) s.laddr
  | .mode1 => s.mode1Act
  | .mode2 => s.mode2
  | .mmask => s.mmask
  | .astat => s.astat
  | .irptl => (s.irptl &&& 0xFFFFBFFF) ||| (if linkPending s then 0x00004000 else 0)
  | .imask => s.imask
  | .lirptl => (s.lirptl &&& 0xF0FFFFFF) ||| ((if s.isrv = [] then 0 else Config.maskPointers s.cycle).setWidth 32 <<< 24)
  | .ustat1 => s.ustat1
  | .pc | .pcstk | .pcstkp | .faddr | .daddr | .curlcntr | .ustat2 | .ustat3 | .ustat4 => 0
  | .flags | .stky | .imaskp | .px | .px1 | .px2 | .s _ => 0

/-- The value may be written to the register: an admitted register, no 1 in a reserved bit, no change of a
hardware-owned bit (10_state R37, R38, R40, R43, R44, 44_system_register R230, U6). -/
def writable (u : UReg) (v : Word) (s : State) : Bool :=
  match u with
  | .mode1 => v &&& 0xFE180300 == 0
  | .mode2 => v &&& 0xFFC07FC8 == 0
  | .irptl => (v ^^^ s.irptl) &&& 0x80000201 == 0
  | .imask => v &&& 0x80000200 == 0 && (v ^^^ s.imask) &&& 0x00000003 == 0
  | .lirptl =>
      v &&& 0xF0F0FFF0 == 0 && ((v ^^^ s.lirptl) &&& 0x0F000000 == 0 || (v ^^^ uregRead s .lirptl) &&& 0x0F000000 == 0)
  | u => u.readable

/-- The value may not be written to the register: a 1 in a reserved bit, or a change of a hardware-owned bit
(44_system_register R230, U6). IMASK bits 1:0 are left out (10_state R43). -/
def refusedWrite (u : UReg) (v : Word) (s : State) : Bool :=
  match u with
  | .mode1 => v &&& 0xFE180300 != 0
  | .mode2 => v &&& 0xFFC07FC8 != 0
  | .irptl => (v ^^^ s.irptl) &&& 0x80000201 != 0
  | .imask => v &&& 0x80000200 != 0
  | .lirptl =>
      v &&& 0xF0F0FFF0 != 0 || ((v ^^^ s.lirptl) &&& 0x0F000000 != 0 && (v ^^^ uregRead s .lirptl) &&& 0x0F000000 != 0)
  | _ => false

/-- `ureg(u) <- v` with its side effects (10_state R16, R40, R46); bit 14 of IRPTL (60_exceptions R259, log 20) and bits 27:24 of
LIRPTL (10_state R44, log 19) are not written; LADDR keeps the word for its later reads and leaves the loop stack, and the value
that it reads as is no change of it (41_compute_move R153, log 18). -/
def uregWritten (u : UReg) (v : Word) (s : State) : State :=
  match u with
  | .r n => dataWritten n v s
  | .i n => dagReplaced n { dagRead s n with i := (dagRead s n).i.set n v } s
  | .m n => dagReplaced n { dagRead s n with m := (dagRead s n).m.set n v } s
  | .l n => dagReplaced n { dagRead s n with l := (dagRead s n).l.set n v } s
  | .b n => dagReplaced n { dagRead s n with b := (dagRead s n).b.set n v, i := (dagRead s n).i.set n v } s
  | .tcount => { s with tcount := v }
  | .tperiod => { s with tperiod := v }
  | .lcntr => { s with lcntr := v }
  | .laddr => { s with laddr := if v = uregRead s .laddr then s.laddr else v }
  | .mode1 => { s with mode1 := v, mode1Wrote := true }
  | .mode2 => { s with mode2 := v }
  | .mmask => { s with mmask := v }
  | .astat => { s with astat := v }
  | .irptl => { s with irptl := (v &&& 0xFFFFBFFF) ||| (s.irptl &&& 0x00004000) }
  | .imask => { s with imask := v }
  | .lirptl => { s with lirptl := (v &&& 0xF0FFFFFF) ||| (s.lirptl &&& 0x0F000000) }
  | .ustat1 => { s with ustat1 := v }
  | _ => s

/-- The universal register with a system register's name (10_state R40, R41). -/
def sregAsUreg : SReg → UReg
  | .mode1 => .mode1 | .mode2 => .mode2 | .astat => .astat | .imask => .imask | .irptl => .irptl
  | .lirptl => .lirptl | .mmask => .mmask | .ustat1 => .ustat1
  | .flags => .flags | .imaskp => .imaskp | .stky => .stky
  | .ustat2 => .ustat2 | .ustat3 => .ustat3 | .ustat4 => .ustat4

/-- What a system register holds: what `BIT SET`, `CLR` and `TGL` change (logs 10, 19). -/
def sregHeld (s : State) : SReg → Word
  | .mode1 => s.mode1 | .mode2 => s.mode2 | .astat => s.astat | .imask => s.imask | .irptl => s.irptl
  | .lirptl => s.lirptl | .mmask => s.mmask | .ustat1 => s.ustat1
  | .flags | .imaskp | .stky | .ustat2 | .ustat3 | .ustat4 => 0

/-- `BIT SET`, `CLR`, `TGL` may leave the value in the register: it may be written, and the mask-pointer bits of LIRPTL are as
they are held (44_system_register R230, U6, log 19). -/
def changeable (r : SReg) (v : Word) (s : State) : Bool :=
  writable (sregAsUreg r) v s && (r != .lirptl || (v ^^^ s.lirptl) &&& 0x0F000000 == 0)

/-- `BIT SET`, `CLR`, `TGL` may not leave the value in the register: a 1 in a reserved bit, or any change of a hardware-owned bit
as it is held (44_system_register R230, U6, log 19). IMASK bits 1:0 are left out (10_state R43). -/
def refusedChange (r : SReg) (v : Word) (s : State) : Bool :=
  refusedWrite (sregAsUreg r) v s || (r == .lirptl && (v ^^^ s.lirptl) &&& 0x0F000000 != 0)

/-! ### Loops and calls -/

/-- The end address of a `DO`: as it stands, or relative to the `DO` itself (43_program_flow R216). -/
def loopEndOf (s : State) : Target → PAddr
  | .absolute a => a
  | .relative off => s.pc + off

/-- What a `DO` with this end needs of the stacks and addresses (43_program_flow R216, 10_state R30, R31). -/
abbrev LoopFits (s : State) (endAddr : PAddr) : Prop :=
  s.pc.toNat + 1 ≤ endAddr.toNat ∧ (∀ e ∈ s.loopStack.head?, endAddr.toNat < e.endAddr.toNat) ∧
    s.pcStack.length < 30 ∧ s.loopStack.length < 6

/-- The PC stack with one more entry, SOVFI latched when it becomes full (10_state R30). -/
def pcPushed (addr : PAddr) (tag : PcTag) (s : State) : State :=
  { s with
    pcStack := ⟨addr, tag⟩ :: s.pcStack
    irptl := if s.pcStack.length = 29 then s.irptl ||| 0x00000008 else s.irptl }

/-- Both stacks after a `DO` (43_program_flow R216, R218). -/
def loopPushed (endAddr : PAddr) (term : CondCode) (count : Word) (s : State) : State :=
  { pcPushed (s.pc + 1) .loop s with loopStack := ⟨endAddr, term, count⟩ :: s.loopStack }

/-- The return address of a call (43_program_flow R224). -/
def returnAddress (db : Bool) (s : State) : PAddr := if db then s.pc + 3 else s.pc + 1

/-- What the modifiers `(LA)` and `(CI)` need (43_program_flow R203). -/
abbrev ModifiersOk (la ci : Bool) (s : State) : Prop :=
  (la = true → ci = false ∧ s.loopStack ≠ [] ∧ s.pcStack.head?.map (·.tag) = some .loop) ∧ (ci = true → s.isrv ≠ [])

/-- The effects of `(LA)` and `(CI)` of a taken jump (43_program_flow R203). -/
def modifiersDone (la ci : Bool) (s : State) : State :=
  if la then { s with loopStack := s.loopStack.tail, pcStack := s.pcStack.tail }
  else if ci then { s with isrv := s.isrv.tail, pcStack := retagInterrupt s.pcStack }
  else s

/-- The state after a status-stack push (44_system_register R240, 10_state R39). -/
def statusPushed (s : State) : State :=
  { s with
    statusStack := ⟨s.mode1Act, s.astat⟩ :: s.statusStack
    mode1 := s.mode1 &&& ~~~s.mmask
    mode1Wrote := true }

/-- The state after a status-stack pop: MODE1, and ASTAT but for bits 22:19 (44_system_register R241). -/
def statusPopped (e : StatusEntry) (s : State) : State :=
  { s with
    statusStack := s.statusStack.tail
    mode1 := e.mode1
    mode1Wrote := true
    astat := (e.astat &&& ~~~0x00780000) ||| (s.astat &&& 0x00780000) }

/-- A row of the vector table: the offset, whether the latch stands in LIRPTL, the latch bit (60_exceptions R252). -/
structure VectorRow where
  offset : Nat
  inLirptl : Bool
  bit : Nat
deriving DecidableEq, Repr

/-- The vector table (60_exceptions R252). -/
def vectorRow : Interrupt → VectorRow
  | .emui => ⟨0x00, false, 0⟩ | .rsti => ⟨0x04, false, 1⟩ | .iicdi => ⟨0x08, false, 2⟩ | .sovfi => ⟨0x0C, false, 3⟩
  | .tmzhi => ⟨0x10, false, 4⟩ | .virpti => ⟨0x14, false, 5⟩
  | .irq2i => ⟨0x18, false, 6⟩ | .irq1i => ⟨0x1C, false, 7⟩ | .irq0i => ⟨0x20, false, 8⟩
  | .sp0i => ⟨0x28, false, 10⟩ | .sp1i => ⟨0x2C, false, 11⟩ | .sp2i => ⟨0x30, false, 12⟩ | .sp3i => ⟨0x34, false, 13⟩
  | .lp0i => ⟨0x38, true, 0⟩ | .lp1i => ⟨0x3C, true, 1⟩ | .spiri => ⟨0x40, true, 2⟩ | .spiti => ⟨0x44, true, 3⟩
  | .ep0i => ⟨0x50, false, 15⟩ | .ep1i => ⟨0x54, false, 16⟩ | .ep2i => ⟨0x58, false, 17⟩ | .ep3i => ⟨0x5C, false, 18⟩
  | .lsrqi => ⟨0x60, false, 19⟩ | .cb7i => ⟨0x64, false, 20⟩ | .cb15i => ⟨0x68, false, 21⟩ | .tmzli => ⟨0x6C, false, 22⟩
  | .fixi => ⟨0x70, false, 23⟩ | .fltoi => ⟨0x74, false, 24⟩ | .fltui => ⟨0x78, false, 25⟩ | .fltii => ⟨0x7C, false, 26⟩
  | .sft0i => ⟨0x80, false, 27⟩ | .sft1i => ⟨0x84, false, 28⟩ | .sft2i => ⟨0x88, false, 29⟩ | .sft3i => ⟨0x8C, false, 30⟩

/-- The interrupt is latched (60_exceptions R252, R255). -/
def isLatched (s : State) (n : Interrupt) : Bool :=
  if (vectorRow n).inLirptl then s.lirptl.getLsbD (vectorRow n).bit else s.irptl.getLsbD (vectorRow n).bit

/-- The interrupt is enabled: IRPTEN (MODE1 bit 12), and its IMASK bit, or its LIRPTL mask bit with LPISUMI (IMASK bit 14)
(60_exceptions R256). -/
def isEnabled (s : State) (n : Interrupt) : Bool :=
  s.mode1.getLsbD 12 &&
    if (vectorRow n).inLirptl then s.lirptl.getLsbD (16 + (vectorRow n).bit) && s.imask.getLsbD 14
    else s.imask.getLsbD (vectorRow n).bit

/-- The state with the interrupt's latch bit cleared (60_exceptions R263). -/
def latchCleared (n : Interrupt) (s : State) : State :=
  let mask := ~~~(BitVec.twoPow 32 (vectorRow n).bit)
  if (vectorRow n).inLirptl then { s with lirptl := s.lirptl &&& mask } else { s with irptl := s.irptl &&& mask }

/-- The bits of IRPTL that a source outside the core sets (60_exceptions R253, R254, 10_state R43). -/
def sourceIrptl : EnvSource → Word
  | .irq2 => 0x00000040 | .irq1 => 0x00000080 | .irq0 => 0x00000100 | .virpt => 0x00000020 | .lsrq => 0x00080000
  | .iicd => 0x00000004
  | .sp0 => 0x00000400 | .sp1 => 0x00000800 | .sp2 => 0x00001000 | .sp3 => 0x00002000
  | .ep0 => 0x00008000 | .ep1 => 0x00010000 | .ep2 => 0x00020000 | .ep3 => 0x00040000
  | .lp0 | .lp1 | .spir | .spit => 0

/-- The bits of LIRPTL that a source outside the core sets (60_exceptions R253, 10_state R44). -/
def sourceLirptl : EnvSource → Word
  | .lp0 => 0x00000001 | .lp1 => 0x00000002 | .spir => 0x00000004 | .spit => 0x00000008
  | .irq2 | .irq1 | .irq0 | .virpt | .lsrq | .iicd | .sp0 | .sp1 | .sp2 | .sp3 | .ep0 | .ep1 | .ep2 | .ep3 => 0

/-- The interrupts whose entry saves MODE1 and ASTAT (60_exceptions R264). -/
def statusInterrupts : List Interrupt := [.irq2i, .irq1i, .irq0i, .tmzhi, .tmzli, .virpti]

/-- `RTI` finds what it pops: an interrupt in service, its PC-stack entry, and for the six status-saving interrupts a
status entry (60_exceptions R270). -/
abbrev CanReturn (s : State) (n : Interrupt) (t : PAddr) : Prop :=
  s.isrv.head? = some n ∧ s.pcStack.head? = some ⟨t, .interrupt⟩ ∧
    (n ∈ statusInterrupts → ∃ e ∈ s.statusStack.head?, e.mode1 &&& 0xFE180300 = 0)

/-- The state after `ReturnFromInterrupt()` (60_exceptions R270), `pc` aside. -/
def returned (n : Interrupt) (s : State) : State :=
  let s1 := { s with pcStack := s.pcStack.tail, isrv := s.isrv.tail }
  match s.statusStack with
  | e :: _ => if n ∈ statusInterrupts then statusPopped e s1 else s1
  | [] => s1

/-! ### What each instruction may write -/

/-- The words that an instruction stores to: the addresses its meaning computes, where its condition lets it store. -/
def storedWords (i : Instr) (s : State) : List Word :=
  match i with
  | .computeDualMove _ dmDir ia _ _ pmDir ic _ _ =>
      (if dmDir = .store then [s.postAddr (dagIndex .dm ia)] else []) ++
        (if pmDir = .store then [s.postAddr (dagIndex .pm ic)] else [])
  | .storePostUreg cond _ bus i _ _ => if truth s cond then [s.postAddr (dagIndex bus i)] else []
  | .storePreUreg cond _ bus i m _ =>
      if truth s cond then [s.preModify (dagIndex bus i) (s.getM (dagIndex bus m))] else []
  | .storePostData6 cond _ bus i _ _ => if truth s cond then [s.postAddr (dagIndex bus i)] else []
  | .storePreData6 cond _ bus i data6 _ => if truth s cond then [s.preModify (dagIndex bus i) (data6Value data6)] else []
  | .shiftStorePost cond _ bus i _ _ => if truth s cond then [s.postAddr (dagIndex bus i)] else []
  | .storeDirect _ addr _ => [addr]
  | .storePreData32 bus i data _ => [s.preModify (dagIndex bus i) data]
  | .storePostImm bus i _ _ => [s.postAddr (dagIndex bus i)]
  | .jumpIndMove cond _ _ _ .store ia _ _ => if truth s cond then [] else [s.postAddr (dagIndex .dm ia)]
  | .jumpShortMove cond _ _ .store ia _ _ => if truth s cond then [] else [s.postAddr (dagIndex .dm ia)]
  | _ => []

/-- The data registers of a clause's operation. -/
def clauseDests : Clause → List DReg
  | .none => []
  | .withCompute c | .elseCompute c => c.dests

/-- The operations that a clause holds. -/
def clauseOperations : Clause → List Compute
  | .none => []
  | .withCompute c | .elseCompute c => [c]

/-- The data register that a universal register is, if any. -/
def uregDreg : UReg → List DReg
  | .r n => [n]
  | _ => []

/-- The data registers that an instruction may write. -/
def dregsWritten : Instr → List DReg
  | .computeDualMove c dmDir _ _ d1 pmDir _ _ d2 =>
      c.dests ++ (if dmDir = .load then [d1] else []) ++ (if pmDir = .load then [d2] else [])
  | .ifCompute _ c | .storePostUreg _ c _ _ _ _ | .storePreUreg _ c _ _ _ _ => c.dests
  | .loadPostUreg _ c _ _ _ u | .loadPreUreg _ c _ _ _ u => c.dests ++ uregDreg u
  | .storePostData6 _ c _ _ _ _ | .storePreData6 _ c _ _ _ _ => c.dests
  | .loadPostData6 _ c _ _ _ d | .loadPreData6 _ c _ _ _ d => c.dests ++ [d]
  | .moveUreg _ c u1 _ => c.dests ++ uregDreg u1
  | .shiftStorePost _ c _ _ _ _ | .modifyReg _ c _ _ => c.dests
  | .shiftLoadPost _ c _ _ _ d => c.dests ++ [d]
  | .loadDirect _ _ u | .loadPreData32 _ _ _ u | .loadImm u _ => uregDreg u
  | .jumpInd _ _ _ _ _ _ cl | .jumpShort _ _ _ _ _ cl | .callInd _ _ _ _ cl | .callShort _ _ _ cl => clauseDests cl
  | .jumpIndMove _ _ _ c dir _ _ d | .jumpShortMove _ _ c dir _ _ d => c.dests ++ (if dir = .load then [d] else [])
  | .rts _ _ _ cl | .rti _ _ cl => clauseDests cl
  | _ => []

/-- The compute operations that an instruction holds. -/
def operations : Instr → List Compute
  | .computeDualMove c _ _ _ _ _ _ _ _ | .ifCompute _ c | .storePostUreg _ c _ _ _ _ | .storePreUreg _ c _ _ _ _ => [c]
  | .loadPostUreg _ c _ _ _ _ | .loadPreUreg _ c _ _ _ _ | .storePostData6 _ c _ _ _ _ => [c]
  | .storePreData6 _ c _ _ _ _ | .loadPostData6 _ c _ _ _ _ | .loadPreData6 _ c _ _ _ _ | .moveUreg _ c _ _ => [c]
  | .shiftStorePost _ c _ _ _ _ | .shiftLoadPost _ c _ _ _ _ | .modifyReg _ c _ _ => [c]
  | .jumpInd _ _ _ _ _ _ cl | .jumpShort _ _ _ _ _ cl | .callInd _ _ _ _ cl | .callShort _ _ _ cl => clauseOperations cl
  | .jumpIndMove _ _ _ c _ _ _ _ | .jumpShortMove _ _ c _ _ _ _ => [c]
  | .rts _ _ _ cl | .rti _ _ cl => clauseOperations cl
  | _ => []

/-- The instruction is `PUSH STS`, `POP STS` or `RTI`: the status stack is in its effect (44_system_register R240, R241,
60_exceptions R270). -/
def ofStatusStack : Instr → Bool
  | .pushSts | .popSts | .rti _ _ _ => true
  | _ => false

/-- The instruction is `BIT TST` or `BIT XOR`. -/
def ofBitTest : Instr → Bool
  | .bitTst _ _ | .bitXor _ _ => true
  | _ => false

/-- The number of the DAG register that a universal register is, if any. -/
def uregDag : UReg → List (Fin 16)
  | .i n | .m n | .l n | .b n => [n]
  | _ => []

/-- The DAG register numbers of which an instruction may write a register. -/
def dagWritten : Instr → List (Fin 16)
  | .computeDualMove _ _ ia _ _ _ ic _ _ => [dagIndex .dm ia, dagIndex .pm ic]
  | .storePostUreg _ _ bus i _ _ | .storePostData6 _ _ bus i _ _ | .loadPostData6 _ _ bus i _ _ => [dagIndex bus i]
  | .shiftStorePost _ _ bus i _ _ | .shiftLoadPost _ _ bus i _ _ | .storePostImm bus i _ _ => [dagIndex bus i]
  | .loadPostUreg _ _ bus i _ u => dagIndex bus i :: uregDag u
  | .loadPreUreg _ _ _ _ _ u | .moveUreg _ _ u _ | .loadDirect _ _ u | .loadPreData32 _ _ _ u | .loadImm u _ => uregDag u
  | .modifyReg _ _ i _ | .modifyImm i _ | .bitrev i _ => [i]
  | .jumpIndMove _ _ _ _ _ ia _ _ | .jumpShortMove _ _ _ _ ia _ _ => [dagIndex .dm ia]
  | _ => []

/-- The universal register that an instruction writes as such, if any. -/
def uregDest : Instr → Option UReg
  | .loadPostUreg _ _ _ _ _ u | .loadPreUreg _ _ _ _ _ u | .moveUreg _ _ u _ => some u
  | .loadDirect _ _ u | .loadPreData32 _ _ _ u | .loadImm u _ => some u
  | .bitSet r _ | .bitClr r _ | .bitTgl r _ => some (sregAsUreg r)
  | .doCountImm _ _ | .doCountUreg _ _ => some .lcntr
  | _ => none

/-- The instruction is a branch, a `DO`, `IDLE` or `PUSH STS`: it may not stand in a delay slot (43_program_flow R223). -/
def barredFromSlots : Instr → Bool
  | .jumpDirect _ _ _ _ _ | .jumpRel _ _ _ _ _ | .callDirect _ _ _ | .callRel _ _ _ => true
  | .jumpInd _ _ _ _ _ _ _ | .jumpShort _ _ _ _ _ _ | .callInd _ _ _ _ _ | .callShort _ _ _ _ => true
  | .jumpIndMove _ _ _ _ _ _ _ _ | .jumpShortMove _ _ _ _ _ _ _ | .rts _ _ _ _ | .rti _ _ _ => true
  | .doCountImm _ _ | .doCountUreg _ _ | .doUntil _ _ | .idle | .pushSts => true
  | _ => false

/-- The instruction may not stand in the last three instructions of a loop: `CALL`, `RTS`, `RTI`, `DO`, a `JUMP` without
`(LA)`, any `(DB)` form (43_program_flow R220). -/
def barredFromTail : Instr → Bool
  | .jumpDirect _ _ db la _ | .jumpRel _ _ db la _ | .jumpInd _ _ _ db la _ _ | .jumpShort _ _ db la _ _ => db || !la
  | .callDirect _ _ _ | .callRel _ _ _ | .callInd _ _ _ _ _ | .callShort _ _ _ _ => true
  | .jumpIndMove _ _ _ _ _ _ _ _ | .jumpShortMove _ _ _ _ _ _ _ | .rts _ _ _ _ | .rti _ _ _ => true
  | .doCountImm _ _ | .doCountUreg _ _ | .doUntil _ _ => true
  | _ => false

/-- The four values of one register number in a copy of the DAG registers. -/
def dagEntry (d : DagRegs) (n : Fin 16) : List Word := [d.i[n], d.m[n], d.l[n], d.b[n]]

/-- The interrupt is latched, enabled, and nesting (NESTM, MODE1 bit 11) lets it in (60_exceptions R262); EMUI and RSTI
are never taken (R251, log 26). -/
abbrev MayTake (s : State) (n : Interrupt) : Prop :=
  n ≠ .emui ∧ n ≠ .rsti ∧ isLatched s n = true ∧ isEnabled s n = true ∧
    (s.isrv = [] ∨ s.mode1.getLsbD 11 = true ∧ ∃ h ∈ s.isrv.head?, (vectorRow n).offset < (vectorRow h).offset)

/-- A takeable interrupt still waits `k` steps of an awake core: what is left of its wait, or the free number where it has just
become takeable (60_exceptions R262, log 13). -/
abbrev WaitLeft (s : State) (k : Nat) : Prop := s.irqWait = some k ∨ s.irqWait = none ∧ Config.irqDelay s.cycle = k

/-- An awake core takes no interrupt at this step: none may be taken, or the one that may still waits; `wait` is what is
left of the wait after the step (60_exceptions R262, log 13). -/
abbrev NoneTaken (s : State) (wait : Option Nat) : Prop :=
  s.takeable = none ∧ wait = none ∨ ∃ n k, s.takeable = some n ∧ WaitLeft s (k + 1) ∧ wait = some k

/-- `f` so many times, while it answers a next state. -/
def repeated (f : State → Result) : Nat → State → Result
  | 0, s => .next s
  | k + 1, s => andThen (f s) (repeated f k)

/-! ### Isolation of the unselected registers -/

/-- `f` on the next state of an outcome. -/
def mapNext (f : State → State) : Result → Result
  | .next s => .next (f s)
  | .fault r => .fault r
  | .refused r => .refused r

/-- Sixteen registers, each taken from `alt` where `sel` picks it, else from `prim`. -/
def picked (sel : Fin 16 → Bool) (alt prim : Vector Word 16) : Vector Word 16 :=
  Vector.ofFn fun n => if sel n then alt[n] else prim[n]

/-- The DAG registers, each taken from `alt` where `sel` picks its number, else from `prim`. -/
def pickedDag (sel : Fin 16 → Bool) (alt prim : DagRegs) : DagRegs :=
  { i := picked sel alt.i prim.i, m := picked sel alt.m prim.m, l := picked sel alt.l prim.l, b := picked sel alt.b prim.b }

/-- The state with other contents in every copy that MODE1 does not select: of each data register, of each number of DAG
registers, of MR (10_state R12, R13, R15). -/
def withUnselected (r : Vector Word 16) (d : DagRegs) (m : MrWord) (s : State) : State :=
  { s with
    regs := picked (altData s) r s.regs
    regsAlt := picked (altData s) s.regsAlt r
    dag := pickedDag (altDag s) d s.dag
    dagAlt := pickedDag (altDag s) s.dagAlt d
    mr := if altMr s then m else s.mr
    mrAlt := if altMr s then s.mrAlt else m }

/-! ### Invariants -/

/-- Both memories are in their canonical form. -/
abbrev MemoryCanonical (s : State) : Prop := Memory.wf s.mem = true ∧ Memory.wf s.code = true

/-- The stacks are within their depths (10_state R30 to R32). -/
abbrev StackBounds (s : State) : Prop :=
  s.pcStack.length ≤ 30 ∧ s.loopStack.length ≤ 6 ∧ s.statusStack.length ≤ 15

/-- The number of entries with a tag. -/
def tagCount (tag : PcTag) (stack : List PcEntry) : Nat := stack.countP fun e => decide (e.tag = tag)

/-- Every loop and every interrupt in service has its PC-stack entry (43_program_flow R224). -/
abbrev StackTags (s : State) : Prop :=
  tagCount .loop s.pcStack = s.loopStack.length ∧ tagCount .interrupt s.pcStack = s.isrv.length

/-- An inner loop ends strictly before the loop that encloses it (43_program_flow R220). -/
abbrev LoopsNested (s : State) : Prop := s.loopStack.Pairwise fun inner outer => inner.endAddr.toNat < outer.endAddr.toNat

/-- A counted loop has passes left (43_program_flow R216, R219). -/
abbrev CountsLeft (s : State) : Prop := ∀ e ∈ s.loopStack, e.term = .lce → e.count ≠ 0

/-- Reserved bits are 0 and hardware-owned bits as at reset (10_state R37, R38, R43, R44, 44_system_register R230, U6). IMASK
bits 1:0 and IRPTL bit 1 are left out (R43, log 26). -/
abbrev ReservedClear (s : State) : Prop :=
  s.mode1 &&& 0xFE180300 = 0 ∧ s.mode1Act &&& 0xFE180300 = 0 ∧
    (∀ e ∈ s.statusStack, e.mode1 &&& 0xFE180300 = 0) ∧ s.mode2 &&& 0xFFC07FC8 = 0 ∧
    s.irptl &&& 0x80004201 = 0 ∧ s.imask &&& 0x80000200 = 0 ∧ s.lirptl &&& 0xFFF0FFF0 = 0

/-- MODE1 is in force but directly after a write of it (10_state R46). -/
abbrev ModeSettled (s : State) : Prop := s.mode1Wrote = false → s.mode1Act = s.mode1

/-- An idle core has no branch pending and no MODE1 write to settle (43_program_flow R222, R223). -/
abbrev IdleSettled (s : State) : Prop := s.idle = true → s.dly = none ∧ s.mode1Wrote = false

/-- TIMEXP is high for at most 4 cycles (10_state R51). -/
abbrev PulseBounded (s : State) : Prop := s.timexp ≤ 4

/-- What holds of the sequencer between two steps. -/
abbrev SequencerInv (s : State) : Prop := StackBounds s ∧ StackTags s ∧ LoopsNested s ∧ CountsLeft s

/-- What holds of the control registers between two steps. -/
abbrev ControlInv (s : State) : Prop := ReservedClear s ∧ ModeSettled s ∧ IdleSettled s ∧ PulseBounded s

/-! ### The end of a run -/

/-- The run ends: the core is awake and about to fetch from an end address of the launch, no branch pending, nothing in
service, no loop active (70_reset R323, log 40). A core that idles ends no run. -/
abbrev AtEnd (ends : List PAddr) (s : State) : Prop :=
  s.pc ∈ ends ∧ s.idle = false ∧ s.dly = none ∧ s.isrv = [] ∧ s.loopStack = []

end Sys2Proof.Safety
end

