-- ==== Sys2Proof/Certificates/Slice0/Obligations.lean ====
section
/-! DEFINITION. The statements for the provers, in the order of OBLIGATIONS.json: encoding, the effect of every instruction, the
operations beneath them, interrupts and the timer, what instructions leave unchanged, invariants, and where the machine
stops. Helpers are in Sys2Proof/Safety.lean. -/

open Sys2Proof Sys2Proof.Machine Sys2Proof.Safety

/-! ### Encoding -/

/-- Every well-formed instruction, with every operand at every value, is what the decoder reads from its word, and distinct
instructions have distinct words (30_encoding R91). Nothing is said of any word's bits (log 1). -/
def Obligations.DecodeEncodeRoundTrip : Prop :=
  (∀ i : Instr, i.WellFormed → decode (encode i) = .ok i) ∧
    ∀ i j : Instr, i.WellFormed → j.WellFormed → encode i = encode j → i = j

/-- A word is an instruction exactly where some well-formed term encodes to it, and then it is that term: every other word is
refused (30_encoding R96), and whatever is decoded is well-formed. Nothing is said of any word's bits (log 1). -/
def Obligations.DecodeAcceptsOnlyEncodings : Prop :=
  ∀ w : IWord, (∀ i, decode w = .ok i ↔ i.WellFormed ∧ encode i = w) ∧
    ((∀ i : Instr, i.WellFormed → encode i ≠ w) → ∃ e, decode w = .error e)

/-- A few terms by the numbers that the model gives them, written out field by field (log 1): `NOP`, `PUSH STS`,
`JUMP 0x040100`, `BIT SET MODE1 0x10`, `BITREV (I3,4)`, `R0 = DM(I0,1)`, and an operation with three result registers. The
words are whatever the free parameter makes of the numbers. -/
def Obligations.SampleWordsDecode : Prop :=
  decode (Config.wordCode 0x000000000097) = .ok .nop ∧ decode (Config.wordCode 0x0000000000CF) = .ok .pushSts ∧
    decode (Config.wordCode 0x000100403E37) = .ok (.jumpDirect .always 0x040100 false false false) ∧
    decode (Config.wordCode 0x0000000200A7) = .ok (.bitSet .mode1 0x00000010) ∧
    decode (Config.wordCode 0x00000000862F) = .ok (.bitrev 3 4) ∧
    decode (Config.wordCode 0x0040000007F5) = .ok (.loadPostData6 .always .none .dm 0 1 0) ∧
    decode (Config.wordCode 0x000700223E07) = .ok (.ifCompute .always (.multi 0x02 0x3801))

/-! ### Program flow: instructions that fall through -/

/-- `NOP` changes nothing and falls through (43_program_flow R221); `IDLE` makes the core idle, and the address that a
wake-up interrupt will push is the next one (R222). -/
def Obligations.NopAndIdleResult : Prop :=
  ∀ s : State,
    (Ready s → exec .nop s = .next (advance s)) ∧
    (ReadyOutside s → exec .idle s = .next (advance { s with idle := true }))

/-! ### Compute and move -/

/-- Type 2 (41_compute_move R144): the operation when the condition holds, nothing when it does not (R140). What an operation
is given, of the state `s0` before the instruction, and what it writes: the result registers that it names, MR, the
arithmetic flags (log 31) and the four arithmetic interrupts, each a free value, and nothing else; `none` writes nothing
(R141, 60_exceptions R296, log 2). That type 2 takes `none`, and then changes nothing under any condition, is the model's choice
(log 43). The condition: `truth` (`NOT LCE`: log 22). -/
def Obligations.IfComputeResult : Prop :=
  ∀ (cond : CondCode) (slot : Config.Slot) (c : Compute) (s0 s : State),
    let inp := operandsRead s0
    let t := applyCompute slot c s0.computeInput s
    (Ready s →
      exec (.ifCompute cond c) s =
        .next (advance (if truth s cond then applyCompute .compute c s.computeInput s else s))) ∧
    (∀ d, d ∈ c.dests ↔ match c with
      | .none | .quiet _ => False
      | .single _ d1 => d = d1
      | .double _ d1 d2 => d = d1 ∨ d = d2
      | .multi _ set => set.getLsbD d.val = true) ∧
    (c = .none → t = s) ∧
    (c ≠ .none →
      (∀ d, dataRead t d = if d ∈ c.dests then Config.computeValue slot c inp d else dataRead s d) ∧
      (operandsRead t).mr = Config.computeMr slot c inp ∧
      t.astat = (s.astat &&& 0x00FFC000) ||| (Config.computeFlags slot c inp &&& 0xFF003FFF) ∧
      t.irptl = s.irptl ||| ((Config.computeLatches slot c inp).setWidth 32 <<< 23) ∧
      (∀ d, if altData s d then t.regs[d] = s.regs[d] else t.regsAlt[d] = s.regsAlt[d]) ∧
      (if altMr s then t.mr = s.mr else t.mrAlt = s.mrAlt) ∧
      { t with
        regs := s.regs, regsAlt := s.regsAlt, mr := s.mr, mrAlt := s.mrAlt, astat := s.astat, irptl := s.irptl } = s)

/-- Types 3a and 3b (41_compute_move R145, R146): the old value of the register goes to the address, a post-modify
updates the index, then the operation; nothing at all under a false condition; a register of the DAG that makes the
address is refused, and so is a register outside the admitted set (10_state R40, the spec's D41, log 41). The register reads
as R40 has it, with the model's readings of MODE1 (log 10), LADDR (log 18),
LIRPTL bits 27:24 (log 19) and IRPTL bit 14 (log 20). The condition: `truth` (`NOT LCE`: log 22). -/
def Obligations.StoreUregResult : Prop :=
  ∀ (form : DagForm) (cond : CondCode) (c : Compute) (bus : Bus) (i m : Fin 8) (u : UReg) (s : State),
    let n := dagIndex bus i
    let mod := s.getM (dagIndex bus m)
    let a := s.dagAddr form n mod
    let instr : Instr := match form with
      | .post => .storePostUreg cond c bus i m u
      | .pre => .storePreUreg cond c bus i m u
    (Ready s →
      (truth s cond = true → u.readable = true ∧ FormOk form s n mod ∧ Admits s bus a) →
      exec instr s =
        .next (advance (if truth s cond then
          applyCompute .compute c s.computeInput (wordStored a (uregRead s u) (formUpdated form n mod s)) else s))) ∧
    (u.ofDag bus = true → ¬ instr.WellFormed) ∧
    (u.ofDag bus = true ↔
      ∃ k : Fin 8, u ∈ [.i (dagIndex bus k), .m (dagIndex bus k), .l (dagIndex bus k), .b (dagIndex bus k)]) ∧
    (u.readable = false → ¬ instr.WellFormed) ∧
    (u.readable = false ↔ u ∈ [.pc, .pcstk, .pcstkp, .faddr, .daddr, .curlcntr, .ustat2, .ustat3, .ustat4, .flags, .stky,
      .imaskp, .px, .px1, .px2] ∨ ∃ k, u = .s k)

/-- Types 3c and 3d (41_compute_move R147, R148): the word at the address goes to the register after the operation, with
the side effects of 10_state R40 (IRPTL bit 14: log 20, LIRPTL bits 27:24: log 19); a post-modify updates the index; a
load into the DAG that makes the address, or into a result register of the operation, is refused (R142; the spec's D46).
A load of ASTAT or IRPTL replaces what the operation and the wrap wrote there (log 24).
The condition: `truth` (`NOT LCE`: log 22). -/
def Obligations.LoadUregResult : Prop :=
  ∀ (form : DagForm) (cond : CondCode) (c : Compute) (bus : Bus) (i m : Fin 8) (u : UReg) (x : Word) (s : State),
    let n := dagIndex bus i
    let mod := s.getM (dagIndex bus m)
    let instr : Instr := match form with
      | .post => .loadPostUreg cond c bus i m u
      | .pre => .loadPreUreg cond c bus i m u
    (Ready s →
      (truth s cond = true → FormOk form s n mod ∧ Holds s bus (s.dagAddr form n mod) x ∧ writable u x s = true) →
      exec instr s =
        .next (advance (if truth s cond then
          uregWritten u x (applyCompute .compute c s.computeInput (formUpdated form n mod s)) else s))) ∧
    (u.ofDag bus = true → ¬ instr.WellFormed) ∧ (∀ d ∈ c.dests, u = .r d → ¬ instr.WellFormed)

/-- Types 4a to 4d (41_compute_move R149 to R152): stores and loads of a data register, the 6-bit modifier sign-extended; a
load into a result register of the operation is refused (R142).
The condition: `truth` (`NOT LCE`: log 22). -/
def Obligations.Data6MoveResult : Prop :=
  ∀ (form : DagForm) (cond : CondCode) (c : Compute) (bus : Bus) (i : Fin 8) (data6 : BitVec 6) (d : DReg) (x : Word)
    (s : State),
    let n := dagIndex bus i
    let mod := data6.signExtend 32
    let a := s.dagAddr form n mod
    let load : Instr := match form with
      | .post => .loadPostData6 cond c bus i data6 d
      | .pre => .loadPreData6 cond c bus i data6 d
    (Ready s → (truth s cond = true → FormOk form s n mod ∧ Admits s bus a) →
      exec (match form with
          | .post => .storePostData6 cond c bus i data6 d
          | .pre => .storePreData6 cond c bus i data6 d) s =
        .next (advance (if truth s cond then
          applyCompute .compute c s.computeInput (wordStored a (dataRead s d) (formUpdated form n mod s)) else s))) ∧
    (Ready s → (truth s cond = true → FormOk form s n mod ∧ Holds s bus a x) →
      exec load s =
        .next (advance (if truth s cond then
          dataWritten d x (applyCompute .compute c s.computeInput (formUpdated form n mod s)) else s))) ∧
    (d ∈ c.dests → ¬ load.WellFormed)

/-- Type 5 (41_compute_move R153): a register move with the side effects of 10_state R40, beside an operation; a
destination that the operation writes is refused. A register moved to itself is unchanged, LIRPTL with whatever its mask
pointers are, LADDR with whatever it reads as (MODE1 starts its latency, B writes I). The source reads as in `StoreUregResult` (logs 10, 18, 19, 20);
a move to ASTAT or IRPTL replaces what the operation wrote there (log 24).
The condition: `truth` (`NOT LCE`: log 22). -/
def Obligations.MoveUregResult : Prop :=
  ∀ (cond : CondCode) (c : Compute) (u1 u2 : UReg) (s : State),
    let v := uregRead s u2
    (Ready s → (truth s cond = true → u2.readable = true ∧ writable u1 v s = true) →
      exec (.moveUreg cond c u1 u2) s =
        .next (advance (if truth s cond then uregWritten u1 v (applyCompute .compute c s.computeInput s) else s))) ∧
    (Ready s → ReservedClear s → u1.readable = true → u1 ≠ .mode1 → (∀ n, u1 ≠ .b n) →
      exec (.moveUreg cond .none u1 u1) s = .next (advance s)) ∧
    (∀ d ∈ c.dests, u1 = .r d → ¬ (Instr.moveUreg cond c u1 u2).WellFormed)

/-- Types 6a and 6b (41_compute_move R154, R155): an immediate shift beside a post-modify store or load; a load into the
shift's result register is refused. The condition: `truth` (`NOT LCE`: log 22). -/
def Obligations.ShiftMoveResult : Prop :=
  ∀ (cond : CondCode) (sh : Compute) (bus : Bus) (i m : Fin 8) (d : DReg) (x : Word) (s : State),
    let n := dagIndex bus i
    let mod := s.getM (dagIndex bus m)
    let a := s.postAddr n
    (Ready s → (truth s cond = true → IndexOk s n mod ∧ Admits s bus a) →
      exec (.shiftStorePost cond sh bus i m d) s =
        .next (advance (if truth s cond then
          applyCompute .shiftimm sh s.computeInput (wordStored a (dataRead s d) (indexUpdated n mod s)) else s))) ∧
    (Ready s → (truth s cond = true → IndexOk s n mod ∧ Holds s bus a x) →
      exec (.shiftLoadPost cond sh bus i m d) s =
        .next (advance (if truth s cond then
          dataWritten d x (applyCompute .shiftimm sh s.computeInput (indexUpdated n mod s)) else s))) ∧
    (d ∈ sh.dests → ¬ (Instr.shiftLoadPost cond sh bus i m d).WellFormed)

/-- Type 7 and type 19 (41_compute_move R156, 42_immediate_move R182): an index register modified, with an M register
beside an operation, or with an immediate. The condition: `truth` (`NOT LCE`: log 22). -/
def Obligations.ModifyResult : Prop :=
  ∀ (cond : CondCode) (c : Compute) (i m : Fin 16) (data : Word) (s : State), Ready s →
    ((truth s cond = true → IndexOk s i (s.getM m)) →
      exec (.modifyReg cond c i m) s =
        .next (advance (if truth s cond then
          applyCompute .compute c s.computeInput (indexUpdated i (s.getM m) s) else s))) ∧
    (IndexOk s i data → exec (.modifyImm i data) s = .next (advance (indexUpdated i data s)))

/-- Type 1 (41_compute_move R143): both accesses, post-modify, beside an operation that reads the old registers; one word on
both buses with a store stops, and a register written twice is refused. The stop is the spec's decision D10 (20_memory
R76), the refusal of double writes its decision D46 (40_dag_addressing R123). -/
def Obligations.DualMoveResult : Prop :=
  ∀ (c : Compute) (dmDir : Dir) (ia mb : Fin 8) (d1 : DReg) (pmDir : Dir) (ic md : Fin 8) (d2 : DReg) (x1 x2 : Word)
    (s : State),
    let n1 := dagIndex .dm ia
    let n2 := dagIndex .pm ic
    let m1 := s.getM (dagIndex .dm mb)
    let m2 := s.getM (dagIndex .pm md)
    let a1 := s.postAddr n1
    let a2 := s.postAddr n2
    let instr : Instr := .computeDualMove c dmDir ia mb d1 pmDir ic md d2
    (Ready s → IndexOk s n1 m1 → IndexOk s n2 m2 → (a1 = a2 → dmDir = .load ∧ pmDir = .load) →
      MoveFits dmDir s .dm a1 x1 → MoveFits pmDir (moveStored dmDir a1 (dataRead s d1) s) .pm a2 x2 →
      exec instr s =
        .next (advance (moveLoaded pmDir d2 x2 (moveLoaded dmDir d1 x1 (applyCompute .compute c s.computeInput
          (moveStored pmDir a2 (dataRead s d2) (moveStored dmDir a1 (dataRead s d1)
            (indexUpdated n2 m2 (indexUpdated n1 m1 s))))))))) ∧
    (Ready s → IndexOk s n1 m1 → IndexOk s n2 m2 → a1 = a2 → dmDir = .store ∨ pmDir = .store →
      exec instr s = .fault .dualAccessConflict) ∧
    ((dmDir = .load ∧ pmDir = .load ∧ d1 = d2) ∨ (dmDir = .load ∧ d1 ∈ c.dests) ∨ (pmDir = .load ∧ d2 ∈ c.dests) →
      ¬ instr.WellFormed)

/-! ### Immediate moves -/

/-- Types 14a, 14b, 15a, 15b, 16 (42_immediate_move R170 to R174): a direct address with no DAG register, a pre-modify with a
32-bit immediate that leaves the index, a post-modify store of an immediate; a store to a direct address that MemMap does
not admit stops, and a register of the DAG that makes the address is refused. A register reads as in `StoreUregResult`
(logs 10, 18, 19, 20). -/
def Obligations.ImmediateMoveResult : Prop :=
  ∀ (bus : Bus) (i m : Fin 8) (addr data : Word) (u : UReg) (v : Word) (s : State),
    let n := dagIndex bus i
    let mod := s.getM (dagIndex bus m)
    let pre := s.preModify n data
    (Ready s → u.readable = true → Admits s bus addr →
      exec (.storeDirect bus addr u) s = .next (advance (wordStored addr (uregRead s u) s))) ∧
    (Ready s → u.readable = true → s.holdsCode addr = false → s.kindAt bus addr = none →
      exec (.storeDirect bus addr u) s = .fault .writeUnmapped) ∧
    (Ready s → Holds s bus addr v → writable u v s = true →
      exec (.loadDirect bus addr u) s = .next (advance (uregWritten u v s))) ∧
    (Ready s → u.readable = true → Admits s bus pre →
      exec (.storePreData32 bus i data u) s = .next (advance (wordStored pre (uregRead s u) s))) ∧
    (Ready s → Holds s bus pre v → writable u v s = true →
      exec (.loadPreData32 bus i data u) s = .next (advance (uregWritten u v s))) ∧
    (u.ofDag bus = true →
      ¬ (Instr.storePreData32 bus i data u).WellFormed ∧ ¬ (Instr.loadPreData32 bus i data u).WellFormed) ∧
    (Ready s → IndexOk s n mod → Admits s bus (s.postAddr n) →
      exec (.storePostImm bus i m data) s = .next (advance (wordStored (s.postAddr n) data (indexUpdated n mod s))))

/-- Type 17 (42_immediate_move R175): a register loaded with an immediate; a write of B also writes I (10_state R16); bit 14
of IRPTL (log 20) and bits 27:24 of LIRPTL (log 19) are not written. -/
def Obligations.LoadImmediateResult : Prop :=
  ∀ (u : UReg) (data : Word) (s : State), Ready s → writable u data s = true →
    exec (.loadImm u data) s = .next (advance (uregWritten u data s))

/-- A write of B[n] writes the same value to I[n], in the copy that MODE1 selects, and no other DAG register, in either copy;
a write of I[n] leaves every B (10_state R16). Of the write that every instruction makes of a universal register, and of
type 17. -/
def Obligations.BaseWriteSetsIndex : Prop :=
  ∀ (n : Fin 16) (v : Word) (s : State),
    let based := fun old new : DagRegs =>
      new.b[n] = v ∧ new.i[n] = v ∧ new.m = old.m ∧ new.l = old.l ∧ ∀ k, k ≠ n → dagEntry new k = dagEntry old k
    let written := fun t : State =>
      (altDag s n = true → based s.dagAlt t.dagAlt ∧ t.dag = s.dag) ∧
        (altDag s n = false → based s.dag t.dag ∧ t.dagAlt = s.dagAlt)
    (∃ t, writeUreg (.b n) v s = .next t ∧ written t) ∧
    (Ready s → ∃ t, exec (.loadImm (.b n) v) s = .next t ∧ written t) ∧
    (∃ t, writeUreg (.i n) v s = .next t ∧ t.dag.b = s.dag.b ∧ t.dagAlt.b = s.dagAlt.b) ∧
    (Ready s → ∃ t, exec (.loadImm (.i n) v) s = .next t ∧ t.dag.b = s.dag.b ∧ t.dagAlt.b = s.dagAlt.b)

/-- Type 19a (42_immediate_move R183, 40_dag_addressing R120): the sum bit-reversed into the index register, no memory
access; bit i of a reversed word is bit 31 - i (00_scope R6), so reversing in place twice restores. -/
def Obligations.BitrevResult : Prop :=
  (∀ (i : Fin 16) (data : Word) (s : State), Ready s →
    exec (.bitrev i data) s = .next (advance (uregWritten (.i i) (bitrev32 (s.getI i + data)) s))) ∧
  (∀ (v : Word) (k : Nat), k < 32 → (bitrev32 v).getLsbD k = v.getLsbD (31 - k)) ∧
  (∀ v : Word, bitrev32 (bitrev32 v) = v)

/-! ### Branches -/

/-- `JUMP` to an absolute or a PC-relative address (43_program_flow R204, R205), with its modifiers (R203); `(CI)` re-tags the
topmost entry of an interrupt as a call's.
The condition: `truth` (`NOT LCE`: log 22). -/
def Obligations.JumpResult : Prop :=
  ∀ (cond : CondCode) (addr : PAddr) (off : BitVec 24) (db la ci : Bool) (s : State),
    (ReadyToJump la db s → (truth s cond = true → ModifiersOk la ci s) →
      exec (.jumpDirect cond addr db la ci) s =
        .next (if truth s cond then depart db false addr (modifiersDone la ci s) else advance s) ∧
      exec (.jumpRel cond off db la ci) s =
        .next (if truth s cond then depart db false (s.pc + off) (modifiersDone la ci s) else advance s)) ∧
    ∀ before t below, (∀ e ∈ before, e.tag ≠ .interrupt) →
      retagInterrupt before = before ∧
        retagInterrupt (before ++ ⟨t, .interrupt⟩ :: below) = before ++ ⟨t, .call⟩ :: below

/-- `CALL` of an absolute or a PC-relative address (43_program_flow R206, R207): the return address is after the call, or
after its two delay slots (R224). The condition: `truth` (`NOT LCE`: log 22). -/
def Obligations.CallResult : Prop :=
  ∀ (cond : CondCode) (addr : PAddr) (off : BitVec 24) (db : Bool) (s : State),
    ReadyToBranch s → (truth s cond = true → s.pcStack.length < 30) →
    exec (.callDirect cond addr db) s =
      .next (if truth s cond then depart db false addr (pcPushed (returnAddress db s) .call s)
        else { s with pc := s.pc + 1 }) ∧
    exec (.callRel cond off db) s =
      .next (if truth s cond then depart db false (s.pc + off) (pcPushed (returnAddress db s) .call s)
        else { s with pc := s.pc + 1 })

/-- `JUMP (Md,Ic)` and `JUMP (PC,<reladdr6>)` beside a clause (43_program_flow R208, R209).
The condition: `truth` (`NOT LCE`: log 22). -/
def Obligations.JumpClauseResult : Prop :=
  ∀ (cond : CondCode) (md ic : Fin 8) (off : BitVec 6) (db la ci : Bool) (clause : Clause) (s : State),
    let a := s.getI (dagIndex .pm ic) + s.getM (dagIndex .pm md)
    let compute := fun taken => applyCompute .compute (clausePart clause taken) s.computeInput
    ReadyToJump la db s → (truth s cond = true → ModifiersOk la ci s) →
    (TargetOk s md ic →
      exec (.jumpInd cond md ic db la ci clause) s =
        .next (if truth s cond then depart db false (a.setWidth 24) (compute true (modifiersDone la ci s))
          else advance (compute false s))) ∧
    exec (.jumpShort cond off db la ci clause) s =
      .next (if truth s cond then depart db false (s.pc + off.signExtend 24) (compute true (modifiersDone la ci s))
        else advance (compute false s))

/-- `CALL (Md,Ic)` and `CALL (PC,<reladdr6>)` beside a clause (43_program_flow R210, R211).
The condition: `truth` (`NOT LCE`: log 22). -/
def Obligations.CallClauseResult : Prop :=
  ∀ (cond : CondCode) (md ic : Fin 8) (off : BitVec 6) (db : Bool) (clause : Clause) (s : State),
    let a := s.getI (dagIndex .pm ic) + s.getM (dagIndex .pm md)
    let compute := fun taken => applyCompute .compute (clausePart clause taken) s.computeInput
    ReadyToBranch s → (truth s cond = true → s.pcStack.length < 30) →
    (TargetOk s md ic →
      exec (.callInd cond md ic db clause) s =
        .next (if truth s cond then depart db false (a.setWidth 24) (compute true (pcPushed (returnAddress db s) .call s))
          else { compute false s with pc := s.pc + 1 })) ∧
    exec (.callShort cond off db clause) s =
      .next (if truth s cond then
          depart db false (s.pc + off.signExtend 24) (compute true (pcPushed (returnAddress db s) .call s))
        else { compute false s with pc := s.pc + 1 })

/-- `JUMP (Md,Ic), ELSE compute, DM move` and its short form (43_program_flow R212, R213): taken, nothing but the jump;
not taken, the move and the operation; a load into a result register of the operation is refused (41_compute_move R142). The
condition: `truth` (`NOT LCE`: log 22). -/
def Obligations.JumpElseMoveResult : Prop :=
  ∀ (cond : CondCode) (md ic : Fin 8) (off : BitVec 6) (c : Compute) (dir : Dir) (ia mb : Fin 8) (d : DReg) (x : Word)
    (s : State),
    let t := s.getI (dagIndex .pm ic) + s.getM (dagIndex .pm md)
    let n := dagIndex .dm ia
    let mod := s.getM (dagIndex .dm mb)
    let a := s.postAddr n
    let moved := moveLoaded dir d x (applyCompute .compute c s.computeInput
      (moveStored dir a (dataRead s d) (indexUpdated n mod s)))
    (ReadyToBranch s → (truth s cond = false → IndexOk s n mod ∧ MoveFits dir s .dm a x) →
      (TargetOk s md ic →
        exec (.jumpIndMove cond md ic c dir ia mb d) s =
          .next (if truth s cond then { s with pc := t.setWidth 24 } else { moved with pc := s.pc + 1 })) ∧
      exec (.jumpShortMove cond off c dir ia mb d) s =
        .next (if truth s cond then { s with pc := s.pc + off.signExtend 24 } else { moved with pc := s.pc + 1 })) ∧
    (dir = .load → d ∈ c.dests →
      ¬ (Instr.jumpIndMove cond md ic c dir ia mb d).WellFormed ∧ ¬ (Instr.jumpShortMove cond off c dir ia mb d).WellFormed)

/-- `RTS` (43_program_flow R214): the top entry, tagged `call`, is popped and control goes to it.
The condition: `truth` (`NOT LCE`: log 22). -/
def Obligations.RtsResult : Prop :=
  ∀ (cond : CondCode) (db lr : Bool) (clause : Clause) (t : PAddr) (s : State),
    let compute := fun taken => applyCompute .compute (clausePart clause taken) s.computeInput
    ReadyToBranch s → (truth s cond = true → lr = false ∧ s.pcStack.head? = some ⟨t, .call⟩) →
    exec (.rts cond db lr clause) s =
      .next (if truth s cond then depart db false t (compute true { s with pcStack := s.pcStack.tail })
        else { compute false s with pc := s.pc + 1 })

/-- `RTI` (43_program_flow R215, 60_exceptions R270): the return address, the interrupt in service and, for the six
status-saving interrupts, MODE1 and ASTAT are popped; the restored ASTAT replaces the operation's flags,
and the operation latches its arithmetic interrupts (log 23).
The condition: `truth` (`NOT LCE`: log 22). -/
def Obligations.RtiResult : Prop :=
  ∀ (cond : CondCode) (db : Bool) (clause : Clause) (n : Interrupt) (t : PAddr) (s : State),
    let s1 := applyCompute .compute (clausePart clause (truth s cond)) s.computeInput s
    ReadyToBranch s → (truth s cond = true → CanReturn s n t) →
    exec (.rti cond db clause) s =
      .next (if truth s cond then depart db true t (returned n s1) else { s1 with pc := s.pc + 1 })

/-- A taken delayed branch: the two instructions that follow execute, then the one at the target (43_program_flow R202,
10_state R22). -/
def Obligations.DelayedBranchRunsTwoSlots : Prop :=
  ∀ (t : PAddr) (byRti : Bool) (s : State), s.dly = none →
    ¬ EndsLoop { s with pc := s.pc + 1 } → ¬ EndsLoop { s with pc := s.pc + 2 } →
    retire (.delayed t byRti) s = .next { s with dly := some ⟨.two, t, byRti⟩, pc := s.pc + 1 } ∧
    retire .noBranch { s with dly := some ⟨.two, t, byRti⟩, pc := s.pc + 1 } =
      .next { s with dly := some ⟨.one, t, byRti⟩, pc := s.pc + 2 } ∧
    retire .noBranch { s with dly := some ⟨.one, t, byRti⟩, pc := s.pc + 2 } = .next { s with dly := none, pc := t }

/-! ### Loops -/

/-- The three `DO` forms (43_program_flow R216 to R218): both stacks pushed, LCNTR written by the counted forms alone, and
the body starts at the next address. A register count is the register as it reads (logs 10, 18, 19, 20). -/
def Obligations.LoopStartResult : Prop :=
  ∀ (count : BitVec 16) (u : UReg) (term : CondCode) (target : Target) (s : State),
    let counted := fun (k : Word) =>
      { loopPushed (loopEndOf s target) .lce k s with lcntr := k, pc := s.pc + 1 }
    ReadyToBranch s → LoopFits s (loopEndOf s target) →
    (count ≠ 0 → exec (.doCountImm count target) s = .next (counted (count.setWidth 32))) ∧
    (u.readable = true → uregRead s u ≠ 0 →
      exec (.doCountUreg u target) s = .next (counted (uregRead s u))) ∧
    exec (.doUntil target term) s = .next { loopPushed (loopEndOf s target) term 0 s with pc := s.pc + 1 }

/-- A counted loop of count n ends n passes: each of the first n - 1 goes back to the body's first instruction with one
less to go, the n-th pops both stacks and falls through; a loop `UNTIL FOREVER` always goes back; one with another
termination does either, by a free value at each pass (43_program_flow R218, R219; the spec's D25, log 21). -/
def Obligations.LoopRunsItsCount : Prop :=
  ∀ (e : LoopEntry) (loops : List LoopEntry) (p : PcEntry) (below : List PcEntry) (s : State),
    s.loopStack = e :: loops → s.pcStack = p :: below → p.tag = .loop → s.dly = none →
    let pass := fun t : State => retire .noBranch { t with pc := e.endAddr }
    (e.term = .lce → e.count ≠ 0 →
      (∀ k : Nat, 0 < k → k < e.count.toNat →
        repeated pass k s =
          .next { s with loopStack := { e with count := e.count - BitVec.ofNat 32 k } :: loops, pc := p.addr }) ∧
      repeated pass e.count.toNat s = .next { s with loopStack := loops, pcStack := below, pc := e.endAddr + 1 }) ∧
    (e.term = .always → pass s = .next { s with pc := p.addr }) ∧
    (e.term ≠ .lce → e.term ≠ .always → pass s =
      .next (if Config.loopTest e.term s.cycle then
        { s with loopStack := loops, pcStack := below, pc := e.endAddr + 1 } else { s with pc := p.addr }))

/-! ### System registers -/

/-- `BIT SET`, `CLR`, `TGL` (44_system_register R231, R232, R233): the register changed by the mask, nothing else. MODE1 is
changed in its contents (log 10); bits 27:24 of LIRPTL start as they are held (log 19), and they and bit 14 of IRPTL (log 20)
are not written. A register outside the admitted set is refused (10_state R41, the spec's D41, log 41). -/
def Obligations.BitChangeResult : Prop :=
  ∀ (r : SReg) (data : Word) (s : State),
    (r.admitted = false ↔ r ∈ [.flags, .imaskp, .stky, .ustat2, .ustat3, .ustat4]) ∧
    (r.admitted = false → ∀ i ∈ ([.bitSet r data, .bitClr r data, .bitTgl r data, .bitTst r data, .bitXor r data] :
      List Instr), ¬ i.WellFormed) ∧
    (Ready s → r.admitted = true →
      let u := sregAsUreg r
      let v := sregHeld s r
      (changeable r (v ||| data) s = true → exec (.bitSet r data) s = .next (advance (uregWritten u (v ||| data) s))) ∧
      (changeable r (v &&& ~~~data) s = true →
        exec (.bitClr r data) s = .next (advance (uregWritten u (v &&& ~~~data) s))) ∧
      (changeable r (v ^^^ data) s = true → exec (.bitTgl r data) s = .next (advance (uregWritten u (v ^^^ data) s))))

/-- `BIT TST`, `BIT XOR` (44_system_register R234, R235): BTF alone is written, with whether every named bit is 1, or
whether all 32 bits agree. The register reads with the model's readings of MODE1 (log 10), LIRPTL bits 27:24 (log 19) and
IRPTL bit 14 (log 20). -/
def Obligations.BitTestResult : Prop :=
  ∀ (r : SReg) (data : Word) (s : State), Ready s → r.admitted = true →
    let v := uregRead s (sregAsUreg r)
    exec (.bitTst r data) s = .next (advance
      { s with astat := if v &&& data = data then s.astat ||| 0x00040000 else s.astat &&& 0xFFFBFFFF }) ∧
    exec (.bitXor r data) s = .next (advance
      { s with astat := if v = data then s.astat ||| 0x00040000 else s.astat &&& 0xFFFBFFFF })

/-- `PUSH STS` (44_system_register R240): MODE1 and ASTAT saved, the bits of MMASK cleared in MODE1. That MODE1 is saved as
the value in force and masked in its contents is log 10. `POP STS` (R241): MODE1 and ASTAT restored, FLG0-3 kept; in a delay
slot only of `RTI (DB)` (43_program_flow R223). A push on a stack of 15 entries and a pop of an empty one stop (10_state
R32), and an entry with a 1 in a reserved bit of MODE1 is refused (U6, log 36). -/
def Obligations.StatusStackResult : Prop :=
  ∀ (e : StatusEntry) (s : State),
    (ReadyOutside s → s.statusStack.length < 15 → exec .pushSts s = .next (advance (statusPushed s))) ∧
    (ReadyOutside s → 15 ≤ s.statusStack.length → exec .pushSts s = .fault .statusStackOverflow) ∧
    (Ready s → (∀ d ∈ s.dly, d.byRti = true) →
      (s.statusStack.head? = some e → e.mode1 &&& 0xFE180300 = 0 →
        exec .popSts s = .next (advance (statusPopped e s))) ∧
      (s.statusStack.head? = some e → e.mode1 &&& 0xFE180300 ≠ 0 → exec .popSts s = .refused .reservedBit) ∧
      (s.statusStack = [] → exec .popSts s = .fault .statusStackUnderflow))

/-! ### Addressing and memory -/

/-- A post-modify or `MODIFY` update (40_dag_addressing R114, R116, R117): inside its precondition I[n] becomes
`CircUpdate` and a wrap of I7 or I15 latches its interrupt; outside it the machine stops. The registers of number n are read
and written in the copy that MODE1 selects (10_state R15). -/
def Obligations.IndexUpdateResult : Prop :=
  ∀ (n : Fin 16) (m : Word) (s : State),
    (s.getI n = uregRead s (.i n) ∧ s.getM n = uregRead s (.m n) ∧ s.getL n = uregRead s (.l n) ∧
      s.getB n = uregRead s (.b n)) ∧
    setI n m s = uregWritten (.i n) m s ∧
    (IndexOk s n m → modifyIndex n m s = .next (indexUpdated n m s)) ∧
    (¬ IndexOk s n m → modifyIndex n m s = .fault .circularPrecondition)

/-- A circular update that the machine makes leaves the index in its buffer, where the buffer lies below the top of the address
space, and leaves the buffer where it is (40_dag_addressing R116); outside its precondition it makes none
(`IndexUpdateResult`). -/
def Obligations.CircularUpdateStaysInBuffer : Prop :=
  ∀ (n : Fin 16) (m : Word) (s t : State), circularOn s n = true → (s.getB n).toNat + (s.getL n).toNat ≤ 2 ^ 32 →
    modifyIndex n m s = .next t →
    (s.getB n).toNat ≤ (t.getI n).toNat ∧ (t.getI n).toNat < (s.getB n).toNat + (s.getL n).toNat ∧
      t.getB n = s.getB n ∧ t.getL n = s.getL n

/-- The worked example (40_dag_addressing R124): length 11, base 0, step 4 from 0 visits 0, 4, 8, 1, 5, 9, 2, 6, 10, 3, 7
and comes back to 0. -/
def Obligations.CircularWorkedExample : Prop :=
  ∀ s : State, s.mode1Act.getLsbD 24 = true → s.getL 0 = 11 → s.getB 0 = 0 → s.getI 0 = 0 →
    ∀ k : Fin 12, ∃ t, repeated (modifyIndex 0 4) k.val s = .next t ∧
      some (t.getI 0) = ([0, 4, 8, 1, 5, 9, 2, 6, 10, 3, 7, 0] : List Word)[k.val]?

/-- An index operand of a DM access names that register of DAG1 (0 to 7), one of a PM access that of DAG2 (8 to 15)
(20_memory R65, 30_encoding R98). Post-modify puts out the index, pre-modify the index and the modifier added
(40_dag_addressing R111, R112). Bit-reverse mode reverses the address of I0 (BR0, MODE1 bit 1) or I8 (BR8, bit 0) and of no
other register, pre- or post-modify; the index is written from the unreversed sum (R119). -/
def Obligations.BitReversedAddress : Prop :=
  ∀ (form : DagForm) (n : Fin 16) (m : Word) (s : State),
    let plain := match form with
      | .post => s.getI n
      | .pre => s.getI n + m
    let reversed := n.val = 0 ∧ s.mode1Act.getLsbD 1 = true ∨ n.val = 8 ∧ s.mode1Act.getLsbD 0 = true
    (reversed →
      ∀ k, k < 32 → (s.dagAddr form n m).getLsbD k = plain.getLsbD (31 - k)) ∧
    (¬ reversed → s.dagAddr form n m = plain) ∧
    s.postAddr n = s.dagAddr .post n m ∧ s.preModify n m = s.dagAddr .pre n m ∧
    ∀ i : Fin 8, (dagIndex .dm i).val = i.val ∧ (dagIndex .pm i).val = i.val + 8

/-- A data word reads back what was last written to it, and a write leaves every other word (20_memory R63, R71). -/
def Obligations.WordReadsBack : Prop :=
  ∀ (m : Memory) (a v : Word), Memory.readWord (Memory.writeWord m a v) a = some v ∧
    ∀ b, b ≠ a → Memory.readWord (Memory.writeWord m a v) b = Memory.readWord m b

/-- Two memories in canonical form that read alike at every cell are equal data. -/
def Obligations.MemoryIsExtensional : Prop :=
  ∀ m1 m2 : Memory, Memory.wf m1 = true → Memory.wf m2 = true →
    (∀ x, Memory.read m1 x = Memory.read m2 x) → m1 = m2

/-- When a data access is made and when it stops (20_memory R63, R64, R69, R72, R75). One word is one word on both buses
(R61, R76). A program address names the place of the same data address, and no address above 24 bits holds an instruction
(R61). MemMap is one map for both buses (R61; the spec's D6): an address has the kind of the first region that covers it (log
4), on each bus that reaches that region. A word of a device that the launch serves answers a free value and takes a write
without an effect in the model (log 16); the word at which the launch places IOFLAG reads and writes that register (10_state
R48, log 15). -/
def Obligations.DataAccessOutcome : Prop :=
  ∀ (s : State) (bus : Bus) (a v : Word),
    (Admits s bus a → memWrite bus a v s = .next (wordStored a v s)) ∧
    (Holds s bus a v → memRead s bus a = .next v) ∧
    (Admits s .dm a → Admits s .pm a → memRead s .pm a = memRead s .dm a) ∧
    (s.holdsCode a = true → memWrite bus a v s = .fault .writeToCode ∧ memRead s bus a = .fault .readUnmapped) ∧
    (∀ p : PAddr, (s.codeBytes p).isSome = true →
      memWrite bus (p.setWidth 32) v s = .fault .writeToCode ∧ memRead s bus (p.setWidth 32) = .fault .readUnmapped) ∧
    (s.holdsCode a = true ↔ ∃ p : PAddr, a = p.setWidth 32 ∧ (s.codeBytes p).isSome = true) ∧
    (2 ^ 24 ≤ a.toNat → s.holdsCode a = false) ∧
    (∀ before r after, s.memMap = before ++ r :: after → Covers r a → (∀ q ∈ before, ¬ Covers q a) →
      s.kindAt .dm a = (if r.dm then some r.kind else none) ∧ s.kindAt .pm a = (if r.pm then some r.kind else none)) ∧
    ((∀ r ∈ s.memMap, ¬ Covers r a) → s.kindAt bus a = none) ∧
    (∀ k1 k2, s.kindAt .dm a = some k1 → s.kindAt .pm a = some k2 → k1 = k2) ∧
    (s.holdsCode a = false →
      (s.kindAt bus a = none → memWrite bus a v s = .fault .writeUnmapped ∧ memRead s bus a = .fault .readUnmapped) ∧
      (s.kindAt bus a = some .data → Memory.readWord s.mem a = none → memRead s bus a = .fault .readUnwritten) ∧
      (s.kindAt bus a = some .device →
        memWrite bus a v s = .refused .deviceNotServed ∧ memRead s bus a = .refused .deviceNotServed) ∧
      (s.kindAt bus a = some .served →
        memWrite bus a v s = .next s ∧ memRead s bus a = .next (Config.deviceWord s.cycle bus a)) ∧
      (s.kindAt bus a = some .ioflag →
        memWrite bus a v s = .next { s with ioflag := v } ∧ memRead s bus a = .next s.ioflag))

/-! ### Interrupts, idle, timer, flags, environment -/

/-- Which interrupt is taken (60_exceptions R262, R260): none in a delayed branch or directly after a MODE1 write; else
the one of lowest vector offset in the table of R252 among those latched, enabled and let in by nesting (the spec's decision
D30); EMUI and RSTI are never taken (log 26). -/
def Obligations.TakenInterruptIsHighest : Prop :=
  ∀ (s : State) (n : Interrupt), s.takeable = some n ↔
    s.dly = none ∧ s.mode1Wrote = false ∧ MayTake s n ∧
      ∀ k, MayTake s k → k ≠ n → (vectorRow n).offset < (vectorRow k).offset

/-- Interrupt entry (60_exceptions R263, R264): exactly the latch bit that the table of R252 gives the interrupt is cleared,
the return address pushed, for the six status-saving interrupts MODE1 and ASTAT saved and MODE1 masked, the interrupt in
service, control at the vector that the table gives. That the latch is cleared and the interrupt recorded as in service is
the spec's own decision D28, the AND-NOT with MMASK its decision D29; that MODE1 is saved as the value in force and masked in
its contents is log 10. Full stacks stop the entry (R272, R297, 10_state R30, R32). -/
def Obligations.InterruptEntryEffect : Prop :=
  ∀ (n : Interrupt) (s : State),
    (s.pcStack.length < 30 → (n ∈ statusInterrupts → s.statusStack.length < 15) →
      let s1 := pcPushed s.pc .interrupt (latchCleared n s)
      let s2 := if n ∈ statusInterrupts then statusPushed s1 else s1
      takeInterrupt n s =
        .next { s2 with
          isrv := n :: s.isrv
          idle := false
          irqWait := none
          pc := (if s.noBoot then 0x200000 else 0x040000) + BitVec.ofNat 24 (vectorRow n).offset }) ∧
    (30 ≤ s.pcStack.length → takeInterrupt n s = .fault .pcStackOverflow) ∧
    (s.pcStack.length < 30 → n ∈ statusInterrupts → 15 ≤ s.statusStack.length →
      takeInterrupt n s = .fault .statusStackOverflow)

/-- `RTI` right after an entry goes back to the interrupted instruction with the stacks, ASTAT, MODE1 and every data
register and word as before (60_exceptions R263, R270). -/
def Obligations.EntryThenReturnRestores : Prop :=
  ∀ (n : Interrupt) (s t : State), takeInterrupt n s = .next t → Sisd s → s.dly = none →
    s.mode1Act = s.mode1 → s.mode1 &&& 0xFE180300 = 0 → ¬ InTail t →
    ∃ u, exec (.rti .always false .none) t = .next u ∧ u.pc = s.pc ∧ u.pcStack = s.pcStack ∧
      u.statusStack = s.statusStack ∧ u.isrv = s.isrv ∧ u.loopStack = s.loopStack ∧ u.astat = s.astat ∧
      u.mode1 = s.mode1 ∧ u.regs = s.regs ∧ u.regsAlt = s.regsAlt ∧ u.dag = s.dag ∧ u.dagAlt = s.dagAlt ∧ u.mem = s.mem

/-- The agents' moves before the core's own: the environment's, the sample of the flag pins, and at least one instruction
cycle of the timer, how many is free (10_state R10, 60_exceptions R281; the spec's D32, log 12). An idle core executes
nothing: a step is the agents' moves and either nothing more or the interrupt that may be taken, at once (43_program_flow
R222, 60_exceptions R262). That a step is the agents' moves in this order and then the core is log 32. -/
def Obligations.IdleWaitsForInterrupt : Prop :=
  ∀ s : State,
    (∃ k, 1 ≤ k ∧ agents s = { cycles k (samplePins (envStep s)) with cycle := s.cycle + 1 }) ∧
    (s.idle = true →
      ((agents s).takeable = none → step s = .next { agents s with irqWait := none }) ∧
      (∀ n, (agents s).takeable = some n → step s = takeInterrupt n (agents s)))

/-- A step of an awake core, after the agents' moves (43_program_flow R200; the split is the spec's D31). An interrupt that
may be taken is taken where its wait is over (60_exceptions R262, R263, log 13). Else, when the bytes at `pc` decode to an
instruction, the step is that instruction's meaning; directly after a MODE1 write it is compared under both values (10_state
R46, `ModeLatency`). No instruction there stops (20_memory R62), and so do bytes that decode to none (30_encoding R96),
directly after a MODE1 write too. A launch that places an instruction's word at `pc` makes its bytes the bytes there, whatever
the word is (30_encoding R91, log 1), and changes those of no other address. -/
def Obligations.StepRunsDecoded : Prop :=
  (∀ s : State, s.idle = false →
    (∀ n, (agents s).takeable = some n → WaitLeft (agents s) 0 → step s = takeInterrupt n (agents s)) ∧
    (∀ wait, NoneTaken (agents s) wait →
      let base := { agents s with irqWait := wait }
      (s.codeBytes s.pc = none → step s = .fault .fetchUnmapped) ∧
      (∀ bs, s.codeBytes s.pc = some bs →
        (∀ e, decodeBytes bs = .error e → step s = .fault (.undecodable e)) ∧
        (∀ i rest, decodeBytes bs = .ok (i, rest) →
          (s.mode1Wrote = false → step s = exec i base) ∧
          (s.mode1Wrote = true → step s = withLatency (exec i) base))))) ∧
  ∀ (s : State) (i : Instr) (w : IWord),
    (i.WellFormed → ∃ bs, (placeWord s.pc (encode i) s).codeBytes s.pc = some bs ∧ decodeBytes bs = .ok (i, [])) ∧
    ∀ p, p ≠ s.pc → (placeWord s.pc w s).codeBytes p = s.codeBytes p

/-- Directly after a MODE1 write an instruction whose result does not depend on the change goes on with the new value in
force, and one whose results differ stops, whichever of the two answers a next state; one that stops alike under both values
stops so (10_state R46). -/
def Obligations.ModeLatency : Prop :=
  ∀ (i : Instr) (s a b : State), s.mode1Wrote = true →
    let old := exec i { s with mode1Wrote := false }
    let new := exec i { s with mode1Wrote := false, mode1Act := s.mode1 }
    (new = .next b → old = .next { b with mode1Act := s.mode1Act } → withLatency (exec i) s = .next b) ∧
    (new = .next b → (∀ a, old = .next a → { a with mode1Act := s.mode1 } ≠ b) →
      withLatency (exec i) s = .fault .mode1Latency) ∧
    (old = .next a → (∀ c, new ≠ .next c) → withLatency (exec i) s = .fault .mode1Latency) ∧
    ((∀ c, old ≠ .next c) → (∀ c, new ≠ .next c) →
      (old = new → withLatency (exec i) s = new) ∧ (old ≠ new → withLatency (exec i) s = .fault .mode1Latency))

/-- The timer (60_exceptions R280, R281, R282): with TIMEN = 1 (MODE2 bit 5) TCOUNT counts down one an instruction cycle with no
interrupt, and the cycle that finds 0 reloads it from TPERIOD, latches TMZHI and TMZLI and drives TIMEXP for 4 cycles;
with TIMEN = 0 no cycle changes anything but TIMEXP's run-down. A cycle changes nothing else, and cycles follow one
another. The form of TIMEXP, a count of the cycles left that runs
down in every cycle, enabled or not, is the model's choice (log 37). -/
def Obligations.TimerCountsAndReloads : Prop :=
  ∀ s : State,
    (s.mode2.getLsbD 5 = true →
      (∀ k, k ≤ s.tcount.toNat →
        (cycles k s).tcount = s.tcount - BitVec.ofNat 32 k ∧ (cycles k s).irptl = s.irptl) ∧
      (cycles (s.tcount.toNat + 1) s).tcount = s.tperiod ∧
      (cycles (s.tcount.toNat + 1) s).irptl = s.irptl ||| 0x00400010 ∧ (cycles (s.tcount.toNat + 1) s).timexp = 4) ∧
    (s.mode2.getLsbD 5 = false → ∀ k, cycles k s = { s with timexp := s.timexp - k }) ∧
    (∀ k, { cycles k s with tcount := s.tcount, irptl := s.irptl, timexp := s.timexp } = s) ∧
    ∀ j k, cycles (j + k) s = cycles k (cycles j s)

/-- A flag that is an input follows its pin, one that is an output keeps its bit, and nothing else changes (60_exceptions
R290, R291, 10_state R48). The moment of the sample is the model's choice (log 14), and so are IOFLAG's sense of a direction
bit (1 is an output) and that the bits of its inputs are overwritten at the sample (log 15). -/
def Obligations.FlagPinsSampled : Prop :=
  ∀ s : State,
    (∀ n : Fin 4, (samplePins s).astat.getLsbD (19 + n.val) =
      if s.mode2.getLsbD (15 + n.val) then s.astat.getLsbD (19 + n.val) else s.flagPins.getLsbD n.val) ∧
    (∀ k : Fin 8, (samplePins s).ioflag.getLsbD k.val =
      if s.ioflag.getLsbD (8 + k.val) then s.ioflag.getLsbD k.val else s.flagPins.getLsbD (4 + k.val)) ∧
    (samplePins s).astat &&& 0xFF87FFFF = s.astat &&& 0xFF87FFFF ∧
    (samplePins s).ioflag &&& 0xFFFFFF00 = s.ioflag &&& 0xFFFFFF00 ∧
    { samplePins s with astat := s.astat, ioflag := s.ioflag } = s

/-- A move of the environment sets the latch bits of its sources, changes the flag pins where it names levels, and writes its
words where they are `shared`, a later write over an earlier one; it clears no latch and touches nothing else; without a
move left nothing happens (60_exceptions R253, 20_memory R74, 10_state R10). The list of moves is the model's (log 11). -/
def Obligations.EnvironmentFrame : Prop :=
  ∀ s : State,
    (∀ a, s.sharedAt a = true ↔
      s.holdsCode a = false ∧ (s.kindAt .dm a = some .shared ∨ s.kindAt .pm a = some .shared)) ∧
    (s.env = [] → envStep s = s) ∧
    (∀ mv rest, s.env = mv :: rest →
      (envStep s).env = rest ∧ (envStep s).flagPins = mv.pins.getD s.flagPins ∧
      (envStep s).irptl = mv.latches.foldl (fun v src => v ||| sourceIrptl src) s.irptl ∧
      (envStep s).lirptl = mv.latches.foldl (fun v src => v ||| sourceLirptl src) s.lirptl ∧
      (∀ before after a v, mv.writes = before ++ (a, v) :: after → (∀ w ∈ after, w.1 ≠ a) → s.sharedAt a = true →
        Memory.readWord (envStep s).mem a = some v) ∧
      ∀ a, (∀ w ∈ mv.writes, w.1 ≠ a) → Memory.readWord (envStep s).mem a = Memory.readWord s.mem a) ∧
    { envStep s with irptl := s.irptl, lirptl := s.lirptl, flagPins := s.flagPins, mem := s.mem, env := s.env } = s ∧
    s.irptl &&& (envStep s).irptl = s.irptl ∧ s.lirptl &&& (envStep s).lirptl = s.lirptl ∧
    (envStep s).irptl &&& 0xFFF0421B = s.irptl &&& 0xFFF0421B ∧
    (envStep s).lirptl &&& 0xFFFFFFF0 = s.lirptl &&& 0xFFFFFFF0 ∧
    ∀ a, s.sharedAt a = false → Memory.readWord (envStep s).mem a = Memory.readWord s.mem a

/-! ### What instructions leave unchanged -/

/-- An instruction changes no byte of data memory outside the words its meaning stores to, and never the program text
(20_memory R71, R72). -/
def Obligations.MemoryFrame : Prop :=
  ∀ (i : Instr) (s t : State), exec i s = .next t →
    (∀ x, Outside x (storedWords i s) → Memory.read t.mem x = Memory.read s.mem x) ∧
    (storedWords i s = [] → t.mem = s.mem ∧ t.ioflag = s.ioflag) ∧ t.code = s.code

/-- An instruction changes no data register but those it names, and of those only the copy that MODE1 selects (10_state
R12). -/
def Obligations.DataRegisterFrame : Prop :=
  ∀ (i : Instr) (s t : State) (n : DReg), exec i s = .next t →
    (n ∉ dregsWritten i → t.regs[n] = s.regs[n] ∧ t.regsAlt[n] = s.regsAlt[n]) ∧
    (altData s n = true → t.regs[n] = s.regs[n]) ∧ (altData s n = false → t.regsAlt[n] = s.regsAlt[n])

/-- An instruction changes no I, M, L or B register but of the numbers it names, and of those only the copy that MODE1
selects (10_state R15, R17). -/
def Obligations.DagRegisterFrame : Prop :=
  ∀ (i : Instr) (s t : State) (n : Fin 16), exec i s = .next t →
    (n ∉ dagWritten i → dagEntry t.dag n = dagEntry s.dag n ∧ dagEntry t.dagAlt n = dagEntry s.dagAlt n) ∧
    (altDag s n = true → dagEntry t.dag n = dagEntry s.dag n) ∧
    (altDag s n = false → dagEntry t.dagAlt n = dagEntry s.dagAlt n)

/-- An instruction changes a system register only where it writes it by name or by the stack operations that the spec
gives it, latches only the interrupts of stacks, wraps and compute, leaves MR and the flags unless it holds an operation,
and leaves the sequencer's stacks unless it branches or ends a loop's pass (10_state R13, R34, 60_exceptions R250). -/
def Obligations.SystemRegisterFrame : Prop :=
  ∀ (i : Instr) (s t : State), exec i s = .next t →
    (uregDest i ≠ some .mode2 → t.mode2 = s.mode2) ∧ (uregDest i ≠ some .mmask → t.mmask = s.mmask) ∧
    (uregDest i ≠ some .imask → t.imask = s.imask) ∧ (uregDest i ≠ some .lirptl → t.lirptl = s.lirptl) ∧
    (uregDest i ≠ some .ustat1 → t.ustat1 = s.ustat1) ∧ (uregDest i ≠ some .tcount → t.tcount = s.tcount) ∧
    (uregDest i ≠ some .tperiod → t.tperiod = s.tperiod) ∧ (uregDest i ≠ some .lcntr → t.lcntr = s.lcntr) ∧
    (uregDest i ≠ some .laddr → t.laddr = s.laddr) ∧
    (uregDest i ≠ some .irptl →
      s.irptl &&& t.irptl = s.irptl ∧ t.irptl &&& 0xF84FFFF7 = s.irptl &&& 0xF84FFFF7) ∧
    (ofStatusStack i = false →
      t.statusStack = s.statusStack ∧ (uregDest i ≠ some .mode1 → t.mode1 = s.mode1 ∧ t.mode1Wrote = s.mode1Wrote) ∧
      (uregDest i ≠ some .astat → ofBitTest i = false →
        t.astat &&& 0x00FFC000 = s.astat &&& 0x00FFC000 ∧ ((∀ c ∈ operations i, c = .none) → t.astat = s.astat))) ∧
    ((∀ c ∈ operations i, c = .none) → t.mr = s.mr ∧ t.mrAlt = s.mrAlt) ∧
    (altMr s = true → t.mr = s.mr) ∧ (altMr s = false → t.mrAlt = s.mrAlt) ∧ (i ≠ .idle → t.idle = s.idle) ∧
    (barredFromSlots i = false →
      t.isrv = s.isrv ∧ (¬ EndsInnermost s → t.pcStack = s.pcStack ∧ t.loopStack = s.loopStack)) ∧
    t.mode1Act = s.mode1Act ∧ t.timexp = s.timexp ∧ t.flagPins = s.flagPins ∧ t.env = s.env ∧ t.cycle = s.cycle ∧
    t.irqWait = s.irqWait ∧ t.memMap = s.memMap ∧ t.noBoot = s.noBoot

/-- The copies that MODE1 does not select, of each data register, each number of DAG registers and MR, under every selection,
mixed ones included, can be neither read nor written: other contents there change no outcome and are still there afterwards
(10_state R12, R13, R15). -/
def Obligations.AlternateRegistersIsolated : Prop :=
  ∀ (i : Instr) (s : State) (r : Vector Word 16) (d : DagRegs) (m : MrWord),
    exec i (withUnselected r d m s) = mapNext (withUnselected r d m) (exec i s)

/-- The program text, the memory map and the vector base are fixed for a run (20_memory R62, R72, 70_reset R301). -/
def Obligations.ProgramTextFixed : Prop :=
  ∀ s t : State, step s = .next t → t.code = s.code ∧ t.memMap = s.memMap ∧ t.noBoot = s.noBoot

/-! ### Invariants -/

/-- Every step keeps both memories in canonical form. -/
def Obligations.MemoryStaysCanonical : Prop :=
  ∀ s t : State, MemoryCanonical s → step s = .next t → MemoryCanonical t

/-- Every step keeps the sequencer's invariant: stack depths, one PC-stack entry for each loop and each interrupt in
service, inner loops ending before outer ones, passes left in counted loops (10_state R30 to R32, 43_program_flow R219,
R220, R224). -/
def Obligations.SequencerInvariantKept : Prop :=
  ∀ s t : State, SequencerInv s → step s = .next t → SequencerInv t

/-- Every step keeps the control registers' invariant: reserved bits 0, hardware-owned bits unchanged, MODE1 in force but
directly after its write, nothing pending while idle, TIMEXP at most 4 (10_state R37, R43, R44, R46, R51). -/
def Obligations.ControlInvariantKept : Prop :=
  ∀ s t : State, ControlInv s → step s = .next t → ControlInv t

/-- The state after reset meets the three invariants. -/
def Obligations.ResetMeetsInvariants : Prop :=
  MemoryCanonical State.reset ∧ SequencerInv State.reset ∧ ControlInv State.reset

/-- What the spec says of the state after reset (70_reset R300, R301, 10_state R57), in both boot modes; `State.reset` is the
default one. The values that the spec names as the family's are the model's choice (log 8); IMASK bits 1:0 are left out
(10_state R43). -/
def Obligations.ResetValues : Prop :=
  State.reset = State.resetIn false ∧
  ∀ noBoot : Bool,
    let s := State.resetIn noBoot
    s.pc = (if noBoot then 0x200005 else 0x040005) ∧ s.ivtBase = (if noBoot then 0x200000 else 0x040000) ∧
      s.idle = false ∧ s.dly = none ∧ s.isrv = [] ∧ s.pcStack = [] ∧ s.loopStack = [] ∧
      s.statusStack = [] ∧ s.mode1 = 0 ∧ s.mode2 = 0 ∧ s.mmask = 0x00200000 ∧ s.irptl = 0 ∧
      s.imask &&& 0xFFFFFFFC = 0 ∧ s.lirptl = 0

/-! ### Where the machine stops -/

/-- Where an instruction may not stand: no instruction runs in SIMD or a broadcast mode (10_state R47; to refuse it is the
spec's decision D40); a branch, `DO`, `IDLE` or `PUSH STS` in a delay slot stops, a `POP STS` in one that is not of
`RTI (DB)`, and any instruction in a slot that ends an active loop (43_program_flow R200, R223); in the last three
instructions of an active loop, the innermost or one around it, a `CALL`, `RTS`, `RTI`, `DO`, a `JUMP` without `(LA)` and a
`(DB)` form are refused, taken or not (R220). What is refused in slots and near a loop's end is the spec's decision D23. -/
def Obligations.PlacementRules : Prop :=
  ∀ (i : Instr) (s : State),
    (s.mode1Act &&& 0x00E00000 ≠ 0 → exec i s = .refused .simdMode) ∧
    (∀ d, s.dly = some d →
      (Sisd s → barredFromSlots i = true → exec i s = .fault .branchInDelaySlot) ∧
      (Sisd s → d.byRti = false → exec .popSts s = .fault .branchInDelaySlot) ∧
      (Sisd s → EndsLoop s → exec .nop s = .fault .branchInDelaySlot) ∧
      (EndsLoop s → ∀ t, exec i s ≠ .next t)) ∧
    (Sisd s → s.dly = none → InTail s → barredFromTail i = true → exec i s = .refused .branchAtLoopEnd)

/-- The stops of taken branches (43_program_flow R203, R206, R208, R214, R224, 60_exceptions R270): `RTS (LR)`; a pop that finds
no entry of its kind, by `RTS`, `RTI` or `(LA)`; `RTI` and `(CI)` with nothing in service; an `RTI` whose status entry is
missing (10_state R32) or has a reserved bit of MODE1 (U6, log 36); `(LA)` with no loop; a call on a full PC stack (R30). And of
indirect branches, taken or not: a target of more than 24 bits (R208), I8 under BR8 (40_dag_addressing R119). -/
def Obligations.BranchStops : Prop :=
  ∀ (s : State) (cond : CondCode) (md ic ia mb : Fin 8) (addr : PAddr) (off : BitVec 24) (off6 : BitVec 6)
    (db la ci : Bool) (clause : Clause) (c : Compute) (dir : Dir) (r : DReg),
    let jumps := fun (la ci : Bool) =>
      [Instr.jumpDirect cond addr db la ci, .jumpRel cond off db la ci, .jumpShort cond off6 db la ci clause] ++
        (if TargetOk s md ic then [.jumpInd cond md ic db la ci clause] else [])
    let calls :=
      [Instr.callDirect cond addr db, .callRel cond off db, .callShort cond off6 db clause] ++
        (if TargetOk s md ic then [.callInd cond md ic db clause] else [])
    (ReadyToBranch s → truth s cond = true →
      exec (.rts cond db true clause) s = .fault .refusedLR ∧
      ((∀ e ∈ s.pcStack.head?, e.tag ≠ .call) → exec (.rts cond db false clause) s = .fault .stackKind) ∧
      (s.isrv = [] → exec (.rti cond db clause) s = .fault .rtiOutsideHandler) ∧
      (s.isrv ≠ [] → (∀ e ∈ s.pcStack.head?, e.tag ≠ .interrupt) → exec (.rti cond db clause) s = .fault .stackKind) ∧
      ((∃ n ∈ s.isrv.head?, n ∈ statusInterrupts) → s.pcStack.head?.map (·.tag) = some .interrupt →
        (s.statusStack = [] → exec (.rti cond db clause) s = .fault .statusStackUnderflow) ∧
        ((∃ e ∈ s.statusStack.head?, e.mode1 &&& 0xFE180300 ≠ 0) →
          exec (.rti cond db clause) s = .refused .reservedBit)) ∧
      (30 ≤ s.pcStack.length → ∀ i ∈ calls, exec i s = .fault .pcStackOverflow)) ∧
    (MayJump true db s → truth s cond = true →
      (s.loopStack = [] → ∀ i ∈ jumps true ci, exec i s = .fault .loopStackEmpty) ∧
      (s.loopStack ≠ [] → (∀ e ∈ s.pcStack.head?, e.tag ≠ .loop) → ∀ i ∈ jumps true ci, exec i s = .fault .stackKind)) ∧
    (MayJump false db s → truth s cond = true → s.isrv = [] → ∀ i ∈ jumps false true, exec i s = .fault .rtiOutsideHandler) ∧
    (∀ i ∈ ([.jumpInd cond md ic db la ci clause, .callInd cond md ic db clause, .jumpIndMove cond md ic c dir ia mb r] :
        List Instr), ReadyToBranch s →
      (ic.val = 0 → s.mode1Act.getLsbD 0 = true → exec i s = .refused .bitReversedBranch) ∧
      ((ic.val = 0 → s.mode1Act.getLsbD 0 = false) → 2 ^ 24 ≤ (s.getI (dagIndex .pm ic) + s.getM (dagIndex .pm md)).toNat →
        exec i s = .fault .branchTargetRange))

/-- The stops of the three `DO` forms, the end absolute or relative (43_program_flow R216 to R218, 10_state R30, R31): a count
of 0; and of every form an end before the body, an end not before the innermost loop's, a full PC stack, a seventh
loop. -/
def Obligations.LoopStops : Prop :=
  ∀ (s : State) (count : BitVec 16) (u : UReg) (target : Target) (term : CondCode), ReadyToBranch s →
    let e := loopEndOf s target
    let inBody := (s.pc + 1).toNat ≤ e.toNat
    let nested := ∀ outer ∈ s.loopStack.head?, e.toNat < outer.endAddr.toNat
    exec (.doCountImm 0 target) s = .fault .loopCountZero ∧
    (u.readable = true → uregRead s u = 0 → exec (.doCountUreg u target) s = .fault .loopCountZero) ∧
    ∀ i : Instr, i = .doUntil target term ∨ (i = .doCountImm count target ∧ count ≠ 0) ∨
        (i = .doCountUreg u target ∧ u.readable = true ∧ uregRead s u ≠ 0) →
      (¬ inBody → exec i s = .fault .loopEndBeforeStart) ∧
      (inBody → ¬ nested → exec i s = .fault .loopNesting) ∧
      (inBody → nested → 30 ≤ s.pcStack.length → exec i s = .fault .pcStackOverflow) ∧
      (inBody → nested → s.pcStack.length < 30 → 6 ≤ s.loopStack.length → exec i s = .fault .loopStackOverflow)

/-- A write that would put a 1 into a reserved bit of MODE1, MODE2, IMASK or LIRPTL, or change a hardware-owned bit of IRPTL
or LIRPTL, is refused, by `BIT SET`, `CLR` and `TGL` (any change of a mask-pointer bit as it is held), by an immediate, by a
register move and by a load in each form (mask-pointer bits neither as held nor as they read) (10_state R37,
44_system_register R230, U6, logs 19, 36). What a change of IMASK bits 1:0 does is left out of the claim (10_state R43); the
pops are in `StatusStackResult` and `BranchStops`. -/
def Obligations.ReservedBitsRefused : Prop :=
  ∀ (s : State) (u : UReg) (v : Word), Ready s →
    (∀ r data, r.admitted = true →
      (refusedChange r (sregHeld s r ||| data) s = true → exec (.bitSet r data) s = .refused .reservedBit) ∧
      (refusedChange r (sregHeld s r &&& ~~~data) s = true → exec (.bitClr r data) s = .refused .reservedBit) ∧
      (refusedChange r (sregHeld s r ^^^ data) s = true → exec (.bitTgl r data) s = .refused .reservedBit)) ∧
    (refusedWrite u v s = true →
      exec (.loadImm u v) s = .refused .reservedBit ∧
      (∀ cond c u2, truth s cond = true → u2.readable = true → uregRead s u2 = v →
        exec (.moveUreg cond c u u2) s = .refused .reservedBit) ∧
      (∀ bus addr, Holds s bus addr v → exec (.loadDirect bus addr u) s = .refused .reservedBit) ∧
      (∀ bus i data, Holds s bus (s.preModify (dagIndex bus i) data) v →
        exec (.loadPreData32 bus i data u) s = .refused .reservedBit) ∧
      (∀ cond c bus i m, truth s cond = true →
        let n := dagIndex bus i
        let mod := s.getM (dagIndex bus m)
        (IndexOk s n mod → Holds s bus (s.postAddr n) v → exec (.loadPostUreg cond c bus i m u) s = .refused .reservedBit) ∧
        (Holds s bus (s.preModify n mod) v → exec (.loadPreUreg cond c bus i m u) s = .refused .reservedBit)))
end

