-- ==== Sys2Proof/Laws/Memory.lean ====
section
/-! SUPPORT. The memory operations: what a read gives after a write, and that every operation keeps the canonical form. -/

namespace Sys2Proof.Machine

/-! ### Reads after writes -/

@[simp] theorem Memory.read_write_same (m : Memory) (x : Nat) (v : Byte) : Memory.read (Memory.write m x v) x = some v := by
  induction m with
  | nil => simp [Memory.write, Memory.read]
  | cons c m ih =>
    obtain ⟨a, b⟩ := c
    simp only [Memory.write]
    split
    · simp [Memory.read]
    · split
      · simp [Memory.read]
      · rename_i h
        simp [Memory.read, h, ih]

theorem Memory.read_write_other (m : Memory) {x y : Nat} (v : Byte) (h : y ≠ x) :
    Memory.read (Memory.write m x v) y = Memory.read m y := by
  induction m with
  | nil => simp [Memory.write, Memory.read, h]
  | cons c m ih =>
    obtain ⟨a, b⟩ := c
    simp only [Memory.write]
    split
    · simp [Memory.read, h]
    · split
      · rename_i h2
        subst h2
        simp [Memory.read, h]
      · simp [Memory.read, ih]

theorem Memory.read_writeBytes_outside (bs : List Byte) (m : Memory) (base y : Nat) (h : y < base ∨ base + bs.length ≤ y) :
    Memory.read (Memory.writeBytes m base bs) y = Memory.read m y := by
  induction bs generalizing m base with
  | nil => rfl
  | cons b bs ih =>
    simp only [List.length_cons] at h
    rw [Memory.writeBytes, ih _ _ (by omega), Memory.read_write_other _ _ (by omega)]

theorem length_splitBytes (n v : Nat) : (splitBytes n v).length = n := by
  induction n generalizing v with
  | zero => rfl
  | succ n ih => simp [splitBytes, ih]

/-- A word's store leaves every cell outside its four. -/
theorem Memory.read_writeWord_outside (m : Memory) (a v : Word) (y : Nat) (h : y < wordCell a ∨ wordCell a + 4 ≤ y) :
    Memory.read (Memory.writeWord m a v) y = Memory.read m y :=
  Memory.read_writeBytes_outside _ _ _ _ (by rwa [length_splitBytes])

/-- Memories that read alike on the cells read alike as bytes. -/
theorem Memory.readBytes_congr {m1 m2 : Memory} {n base : Nat}
    (h : ∀ y, base ≤ y → y < base + n → Memory.read m1 y = Memory.read m2 y) :
    Memory.readBytes m1 base n = Memory.readBytes m2 base n := by
  induction n generalizing base with
  | zero => rfl
  | succ n ih =>
    simp only [Memory.readBytes]
    rw [h base (by omega) (by omega), ih fun y h1 h2 => h y (by omega) (by omega)]

/-- Bytes written at a place are read there. -/
theorem Memory.readBytes_writeBytes (bs : List Byte) (m : Memory) (base : Nat) :
    Memory.readBytes (Memory.writeBytes m base bs) base bs.length = some bs := by
  induction bs generalizing m base with
  | nil => rfl
  | cons b bs ih =>
    simp only [List.length_cons, Memory.readBytes, Memory.writeBytes]
    rw [ih, Memory.read_writeBytes_outside _ _ _ _ (by omega), Memory.read_write_same]

/-- The bytes of a number, joined, are the number's low bits. -/
theorem joinBytes_splitBytes (n v : Nat) : joinBytes (splitBytes n v) = v % 256 ^ n := by
  induction n generalizing v with
  | zero => simp [splitBytes, joinBytes, Nat.mod_one]
  | succ n ih =>
    rw [splitBytes, joinBytes, ih, BitVec.toNat_ofNat, Nat.pow_succ 256, Nat.mul_comm (256 ^ n), Nat.mod_mul]

/-! ### Canonical form -/

theorem Memory.wf_tail {c : Host.Cell} {m : Memory} (h : Memory.wf (c :: m) = true) : Memory.wf m = true := by
  cases m with
  | nil => rfl
  | cons d m => simp only [Memory.wf, Bool.and_eq_true] at h; exact h.2

/-- A canonical list goes on above any address below its head. -/
theorem Memory.wf_cons {c : Host.Cell} {m : Memory} (h : Memory.wf m = true) (hd : ∀ d ∈ m.head?, c.1 < d.1) :
    Memory.wf (c :: m) = true := by
  cases m with
  | nil => rfl
  | cons d m => simp only [Memory.wf, Bool.and_eq_true, decide_eq_true_eq]; exact ⟨hd d rfl, h⟩

theorem Memory.head_write (m : Memory) (x : Nat) (v : Byte) :
    ∀ d ∈ (Memory.write m x v).head?, d.1 = x ∨ ∃ c ∈ m.head?, d.1 = c.1 := by
  cases m with
  | nil => simp [Memory.write]
  | cons c m =>
    obtain ⟨a, b⟩ := c
    simp only [Memory.write]
    split
    · simp
    · split <;> simp

/-- A write keeps the canonical form. -/
theorem Memory.wf_write {m : Memory} (h : Memory.wf m = true) (x : Nat) (v : Byte) :
    Memory.wf (Memory.write m x v) = true := by
  induction m with
  | nil => rfl
  | cons c m ih =>
    obtain ⟨a, b⟩ := c
    simp only [Memory.write]
    split
    · rename_i hx
      exact Memory.wf_cons h (by simpa using hx)
    · split
      · rename_i hx
        subst hx
        cases m with
        | nil => rfl
        | cons d m => simpa [Memory.wf] using h
      · refine Memory.wf_cons (ih (Memory.wf_tail h)) fun d hd => ?_
        obtain hx | ⟨c, hc, hx⟩ := Memory.head_write m x v d hd
        · omega
        · cases m with
          | nil => simp at hc
          | cons e m =>
            simp only [List.head?_cons, Option.mem_def, Option.some.injEq] at hc
            simp only [Memory.wf, Bool.and_eq_true, decide_eq_true_eq] at h
            subst hc
            omega

theorem Memory.wf_writeBytes (bs : List Byte) {m : Memory} (h : Memory.wf m = true) (base : Nat) :
    Memory.wf (Memory.writeBytes m base bs) = true := by
  induction bs generalizing m base with
  | nil => exact h
  | cons b bs ih => exact ih (Memory.wf_write h base b) _

theorem Memory.wf_writeWord {m : Memory} (h : Memory.wf m = true) (a v : Word) :
    Memory.wf (Memory.writeWord m a v) = true :=
  Memory.wf_writeBytes _ h _

theorem reset_mem_wf : Memory.wf State.reset.mem = true ∧ Memory.wf State.reset.code = true := ⟨rfl, rfl⟩

end Sys2Proof.Machine
end

