-- ==== Sys2Proof/Laws/PerInstr.lean ====
section
/-! SUPPORT. One lemma for each constructor of `Instr`: the fields of its encoding fit into the 48-bit instruction word
(spec/30_encoding.md R90). -/

namespace Sys2Proof.Laws

/-- The bits that fields take together. -/
def fieldsWidth : List Field → Nat
  | [] => 0
  | f :: fs => f.1 + fieldsWidth fs

theorem at_most {i : Instr} {w : Nat} (h : fieldsWidth i.fields = w) (hw : Nat.ble w 48 = true) : fieldsWidth i.fields ≤ 48 :=
  h ▸ Nat.le_of_ble_eq_true hw

/-- The fields of the instruction's encoding fit into 48 bits. -/
def EncodingFits.Statement (i : Instr) : Prop := fieldsWidth i.fields ≤ 48

theorem EncodingFits.computeDualMove (c : Compute) (dmDir : Dir) (ia mb : Fin 8) (dreg1 : DReg) (pmDir : Dir) (ic md :
    Fin 8) (dreg2 : DReg) :
    EncodingFits.Statement (.computeDualMove c dmDir ia mb dreg1 pmDir ic md dreg2) :=
  at_most (w := 48) rfl rfl

theorem EncodingFits.ifCompute (cond : CondCode) (c : Compute) :
    EncodingFits.Statement (.ifCompute cond c) :=
  at_most (w := 37) rfl rfl

theorem EncodingFits.storePostUreg (cond : CondCode) (c : Compute) (bus : Bus) (i m : Fin 8) (u : UReg) :
    EncodingFits.Statement (.storePostUreg cond c bus i m u) :=
  at_most (w := 48) rfl rfl

theorem EncodingFits.storePreUreg (cond : CondCode) (c : Compute) (bus : Bus) (i m : Fin 8) (u : UReg) :
    EncodingFits.Statement (.storePreUreg cond c bus i m u) :=
  at_most (w := 48) rfl rfl

theorem EncodingFits.loadPostUreg (cond : CondCode) (c : Compute) (bus : Bus) (i m : Fin 8) (u : UReg) :
    EncodingFits.Statement (.loadPostUreg cond c bus i m u) :=
  at_most (w := 48) rfl rfl

theorem EncodingFits.loadPreUreg (cond : CondCode) (c : Compute) (bus : Bus) (i m : Fin 8) (u : UReg) :
    EncodingFits.Statement (.loadPreUreg cond c bus i m u) :=
  at_most (w := 48) rfl rfl

theorem EncodingFits.storePostData6 (cond : CondCode) (c : Compute) (bus : Bus) (i : Fin 8) (data6 : BitVec 6) (d :
    DReg) :
    EncodingFits.Statement (.storePostData6 cond c bus i data6 d) :=
  at_most (w := 48) rfl rfl

theorem EncodingFits.storePreData6 (cond : CondCode) (c : Compute) (bus : Bus) (i : Fin 8) (data6 : BitVec 6) (d :
    DReg) :
    EncodingFits.Statement (.storePreData6 cond c bus i data6 d) :=
  at_most (w := 48) rfl rfl

theorem EncodingFits.loadPostData6 (cond : CondCode) (c : Compute) (bus : Bus) (i : Fin 8) (data6 : BitVec 6) (d :
    DReg) :
    EncodingFits.Statement (.loadPostData6 cond c bus i data6 d) :=
  at_most (w := 48) rfl rfl

theorem EncodingFits.loadPreData6 (cond : CondCode) (c : Compute) (bus : Bus) (i : Fin 8) (data6 : BitVec 6) (d :
    DReg) :
    EncodingFits.Statement (.loadPreData6 cond c bus i data6 d) :=
  at_most (w := 48) rfl rfl

theorem EncodingFits.moveUreg (cond : CondCode) (c : Compute) (u1 u2 : UReg) :
    EncodingFits.Statement (.moveUreg cond c u1 u2) :=
  at_most (w := 48) rfl rfl

theorem EncodingFits.shiftStorePost (cond : CondCode) (sh : Compute) (bus : Bus) (i m : Fin 8) (d : DReg) :
    EncodingFits.Statement (.shiftStorePost cond sh bus i m d) :=
  at_most (w := 48) rfl rfl

theorem EncodingFits.shiftLoadPost (cond : CondCode) (sh : Compute) (bus : Bus) (i m : Fin 8) (d : DReg) :
    EncodingFits.Statement (.shiftLoadPost cond sh bus i m d) :=
  at_most (w := 48) rfl rfl

theorem EncodingFits.modifyReg (cond : CondCode) (c : Compute) (i m : Fin 16) :
    EncodingFits.Statement (.modifyReg cond c i m) :=
  at_most (w := 45) rfl rfl

theorem EncodingFits.storeDirect (bus : Bus) (addr : Word) (u : UReg) :
    EncodingFits.Statement (.storeDirect bus addr u) :=
  at_most (w := 46) rfl rfl

theorem EncodingFits.loadDirect (bus : Bus) (addr : Word) (u : UReg) :
    EncodingFits.Statement (.loadDirect bus addr u) :=
  at_most (w := 46) rfl rfl

theorem EncodingFits.storePreData32 (bus : Bus) (i : Fin 8) (data : Word) (u : UReg) :
    EncodingFits.Statement (.storePreData32 bus i data u) :=
  at_most (w := 46) rfl rfl

theorem EncodingFits.loadPreData32 (bus : Bus) (i : Fin 8) (data : Word) (u : UReg) :
    EncodingFits.Statement (.loadPreData32 bus i data u) :=
  at_most (w := 46) rfl rfl

theorem EncodingFits.storePostImm (bus : Bus) (i m : Fin 8) (data : Word) :
    EncodingFits.Statement (.storePostImm bus i m data) :=
  at_most (w := 45) rfl rfl

theorem EncodingFits.loadImm (u : UReg) (data : Word) :
    EncodingFits.Statement (.loadImm u data) :=
  at_most (w := 45) rfl rfl

theorem EncodingFits.modifyImm (i : Fin 16) (data : Word) :
    EncodingFits.Statement (.modifyImm i data) :=
  at_most (w := 45) rfl rfl

theorem EncodingFits.bitrev (i : Fin 16) (data : Word) :
    EncodingFits.Statement (.bitrev i data) :=
  at_most (w := 45) rfl rfl

theorem EncodingFits.jumpDirect (cond : CondCode) (addr : PAddr) (db la ci : Bool) :
    EncodingFits.Statement (.jumpDirect cond addr db la ci) :=
  at_most (w := 41) rfl rfl

theorem EncodingFits.jumpRel (cond : CondCode) (off : BitVec 24) (db la ci : Bool) :
    EncodingFits.Statement (.jumpRel cond off db la ci) :=
  at_most (w := 41) rfl rfl

theorem EncodingFits.callDirect (cond : CondCode) (addr : PAddr) (db : Bool) :
    EncodingFits.Statement (.callDirect cond addr db) :=
  at_most (w := 39) rfl rfl

theorem EncodingFits.callRel (cond : CondCode) (off : BitVec 24) (db : Bool) :
    EncodingFits.Statement (.callRel cond off db) :=
  at_most (w := 39) rfl rfl

theorem EncodingFits.jumpInd (cond : CondCode) (md ic : Fin 8) (db la ci : Bool) (clause : Clause) :
    EncodingFits.Statement (.jumpInd cond md ic db la ci clause) :=
  at_most (w := 48) rfl rfl

theorem EncodingFits.jumpShort (cond : CondCode) (off : BitVec 6) (db la ci : Bool) (clause : Clause) :
    EncodingFits.Statement (.jumpShort cond off db la ci clause) :=
  at_most (w := 48) rfl rfl

theorem EncodingFits.callInd (cond : CondCode) (md ic : Fin 8) (db : Bool) (clause : Clause) :
    EncodingFits.Statement (.callInd cond md ic db clause) :=
  at_most (w := 46) rfl rfl

theorem EncodingFits.callShort (cond : CondCode) (off : BitVec 6) (db : Bool) (clause : Clause) :
    EncodingFits.Statement (.callShort cond off db clause) :=
  at_most (w := 46) rfl rfl

theorem EncodingFits.jumpIndMove (cond : CondCode) (md ic : Fin 8) (c : Compute) (dir : Dir) (ia mb : Fin 8) (d :
    DReg) :
    EncodingFits.Statement (.jumpIndMove cond md ic c dir ia mb d) :=
  at_most (w := 48) rfl rfl

theorem EncodingFits.jumpShortMove (cond : CondCode) (off : BitVec 6) (c : Compute) (dir : Dir) (ia mb : Fin 8) (d :
    DReg) :
    EncodingFits.Statement (.jumpShortMove cond off c dir ia mb d) :=
  at_most (w := 48) rfl rfl

theorem EncodingFits.rts (cond : CondCode) (db lr : Bool) (clause : Clause) :
    EncodingFits.Statement (.rts cond db lr clause) :=
  at_most (w := 41) rfl rfl

theorem EncodingFits.rti (cond : CondCode) (db : Bool) (clause : Clause) :
    EncodingFits.Statement (.rti cond db clause) :=
  at_most (w := 40) rfl rfl

theorem EncodingFits.doCountImm (count : BitVec 16) (target : Target) :
    EncodingFits.Statement (.doCountImm count target) :=
  at_most (w := 47) rfl rfl

theorem EncodingFits.doCountUreg (u : UReg) (target : Target) :
    EncodingFits.Statement (.doCountUreg u target) :=
  at_most (w := 41) rfl rfl

theorem EncodingFits.doUntil (target : Target) (term : CondCode) :
    EncodingFits.Statement (.doUntil target term) :=
  at_most (w := 39) rfl rfl

theorem EncodingFits.nop : EncodingFits.Statement .nop :=
  at_most (w := 9) rfl rfl

theorem EncodingFits.idle : EncodingFits.Statement .idle :=
  at_most (w := 9) rfl rfl

theorem EncodingFits.bitSet (r : SReg) (data : Word) :
    EncodingFits.Statement (.bitSet r data) :=
  at_most (w := 45) rfl rfl

theorem EncodingFits.bitClr (r : SReg) (data : Word) :
    EncodingFits.Statement (.bitClr r data) :=
  at_most (w := 45) rfl rfl

theorem EncodingFits.bitTgl (r : SReg) (data : Word) :
    EncodingFits.Statement (.bitTgl r data) :=
  at_most (w := 45) rfl rfl

theorem EncodingFits.bitTst (r : SReg) (data : Word) :
    EncodingFits.Statement (.bitTst r data) :=
  at_most (w := 45) rfl rfl

theorem EncodingFits.bitXor (r : SReg) (data : Word) :
    EncodingFits.Statement (.bitXor r data) :=
  at_most (w := 45) rfl rfl

theorem EncodingFits.pushSts : EncodingFits.Statement .pushSts :=
  at_most (w := 9) rfl rfl

theorem EncodingFits.popSts : EncodingFits.Statement .popSts :=
  at_most (w := 9) rfl rfl

end Sys2Proof.Laws
end

