-- ==== Sys2Proof/Laws/Decode.lean ====
section
/-! SUPPORT. What each reader of the decoder gives on the fields that the encoder writes, what follows unread; a term's
number; words and numbers; the bytes of a number, and the fetch of a placed word. -/

namespace Sys2Proof.Laws

/-! ### Packed fields -/

theorem pack_mod (w v : Nat) (fs : List Field) : pack ((w, v) :: fs) % 2 ^ w = v % 2 ^ w := by
  simp [pack, Nat.add_mod]

theorem pack_div (w v : Nat) (fs : List Field) : pack ((w, v) :: fs) / 2 ^ w = pack fs := by
  have hp : 0 < 2 ^ w := Nat.two_pow_pos w
  rw [pack, Nat.add_mul_div_left _ _ hp, Nat.div_eq_of_lt (Nat.mod_lt _ hp), Nat.zero_add]

/-- A field's value, where it fits, and the fields after it. -/
theorem pack_mod_of_lt {w v : Nat} (h : v < 2 ^ w) (fs : List Field) : pack ((w, v) :: fs) % 2 ^ w = v := by
  rw [pack_mod, Nat.mod_eq_of_lt h]

theorem pack_lt (fs : List Field) : pack fs < 2 ^ fieldsWidth fs := by
  induction fs with
  | nil => simp [pack, fieldsWidth]
  | cons f fs ih =>
    obtain ⟨w, v⟩ := f
    have hp : 0 < 2 ^ w := Nat.two_pow_pos w
    have h1 := Nat.mod_lt v hp
    have h2 : 2 ^ w * (pack fs + 1) ≤ 2 ^ w * 2 ^ fieldsWidth fs := Nat.mul_le_mul_left _ ih
    simp only [pack, fieldsWidth, Nat.pow_add]
    rw [Nat.mul_add, Nat.mul_one] at h2
    omega

/-- The number of an instruction whose fields fit. -/
theorem termNumber_toNat {i : Instr} (h : EncodingFits.Statement i) : (termNumber i).toNat = pack i.fields := by
  rw [termNumber, BitVec.toNat_ofNat, Nat.mod_eq_of_lt]
  exact Nat.lt_of_lt_of_le (pack_lt _) (Nat.pow_le_pow_right (by decide) h)

/-! ### Readers -/

theorem readBits_pack {w v : Nat} (h : v < 2 ^ w) (fs : List Field) : readBits w (pack ((w, v) :: fs)) = some (v, pack fs) := by
  rw [readBits, pack_mod_of_lt h, pack_div]

theorem readImm_pack {w : Nat} (v : BitVec w) (fs : List Field) : readImm w (pack ((w, v.toNat) :: fs)) = some (v, pack fs) := by
  have h : BitVec.ofNat w (pack ((w, v.toNat) :: fs)) = v := by
    apply BitVec.eq_of_toNat_eq
    rw [BitVec.toNat_ofNat, pack_mod_of_lt v.isLt]
  rw [readImm, h, pack_div]

theorem readImm6_pack (v : BitVec 6) (fs : List Field) : readImm6 (pack (imm6Bits v ++ fs)) = some (v, pack fs) :=
  readImm_pack v fs

theorem readImm16_pack (v : BitVec 16) (fs : List Field) : readImm16 (pack (imm16Bits v ++ fs)) = some (v, pack fs) :=
  readImm_pack v fs

theorem readImm24_pack (v : BitVec 24) (fs : List Field) : readImm24 (pack (imm24Bits v ++ fs)) = some (v, pack fs) :=
  readImm_pack v fs

theorem readImm32_pack (v : BitVec 32) (fs : List Field) : readImm32 (pack (imm32Bits v ++ fs)) = some (v, pack fs) :=
  readImm_pack v fs

theorem readIdx8_pack (v : Fin 8) (fs : List Field) : readIdx8 (pack (idx8Bits v ++ fs)) = some (v, pack fs) := by
  have h : Fin.ofNat 8 (pack ((3, v.val) :: fs)) = v := Fin.ext (pack_mod_of_lt (w := 3) v.isLt fs)
  exact congrArg some (Prod.ext h (pack_div 3 v.val fs))

theorem readIdx16_pack (v : Fin 16) (fs : List Field) : readIdx16 (pack (idx16Bits v ++ fs)) = some (v, pack fs) := by
  have h : Fin.ofNat 16 (pack ((4, v.val) :: fs)) = v := Fin.ext (pack_mod_of_lt (w := 4) v.isLt fs)
  exact congrArg some (Prod.ext h (pack_div 4 v.val fs))

theorem readFlag_pack (v : Bool) (fs : List Field) : readFlag (pack (flagBits v ++ fs)) = some (v, pack fs) := by
  have h : pack ((1, v.toNat) :: fs) % 2 = v.toNat := pack_mod_of_lt (w := 1) (by cases v <;> decide) fs
  have h' : (pack ((1, v.toNat) :: fs) % 2 == 1) = v := by rw [h]; cases v <;> rfl
  exact congrArg some (Prod.ext h' (pack_div 1 v.toNat fs))

theorem readBus_pack (v : Bus) (fs : List Field) : readBus (pack (busBits v ++ fs)) = some (v, pack fs) := by
  have h : pack ((1, v.number) :: fs) % 2 = v.number := pack_mod_of_lt (w := 1) (by cases v <;> decide) fs
  have h' : (if pack ((1, v.number) :: fs) % 2 = 1 then Bus.pm else Bus.dm) = v := by rw [h]; cases v <;> rfl
  exact congrArg some (Prod.ext h' (pack_div 1 v.number fs))

theorem readDir_pack (v : Dir) (fs : List Field) : readDir (pack (dirBits v ++ fs)) = some (v, pack fs) := by
  have h : pack ((1, v.number) :: fs) % 2 = v.number := pack_mod_of_lt (w := 1) (by cases v <;> decide) fs
  have h' : (if pack ((1, v.number) :: fs) % 2 = 1 then Dir.load else Dir.store) = v := by rw [h]; cases v <;> rfl
  exact congrArg some (Prod.ext h' (pack_div 1 v.number fs))

theorem CondCode.number_lt (c : CondCode) : c.number < 2 ^ 5 := by cases c <;> decide

/-- A condition code after IF is read back, but for `LCE`, which no instruction has there (10_state R36). -/
theorem readCond_pack {c : CondCode} (hc : c ≠ .lce) (fs : List Field) :
    readCond (pack (condBits c ++ fs)) = some (c, pack fs) := by
  have h : pack ((5, c.number) :: fs) % 2 ^ 5 = c.number := pack_mod_of_lt (CondCode.number_lt c) fs
  have h' : CondCode.ofNumber .notLce (pack ((5, c.number) :: fs) % 2 ^ 5) = c := by
    rw [h]; cases c <;> first | rfl | exact absurd rfl hc
  exact congrArg some (Prod.ext h' (pack_div 5 c.number fs))

/-- A termination is read back, but for `NOT LCE`, which no instruction has there (log 39). -/
theorem readTerm_pack {c : CondCode} (hc : c ≠ .notLce) (fs : List Field) :
    readTerm (pack (termBits c ++ fs)) = some (c, pack fs) := by
  have h : pack ((5, c.number) :: fs) % 2 ^ 5 = c.number := pack_mod_of_lt (CondCode.number_lt c) fs
  have h' : CondCode.ofNumber .lce (pack ((5, c.number) :: fs) % 2 ^ 5) = c := by
    rw [h]; cases c <;> first | rfl | exact absurd rfl hc
  exact congrArg some (Prod.ext h' (pack_div 5 c.number fs))

theorem UReg.number_lt (u : UReg) : u.number < 2 ^ 7 := by
  cases u <;> simp only [UReg.number] <;> omega

theorem UReg.ofNumber_number (u : UReg) : UReg.ofNumber u.number = some u := by
  cases u <;> first | rfl | (rename_i n; revert n; decide)

theorem readUreg_pack (u : UReg) (fs : List Field) : readUreg (pack (uregBits u ++ fs)) = some (u, pack fs) := by
  have h : pack ((7, u.number) :: fs) % 2 ^ 7 = u.number := pack_mod_of_lt (UReg.number_lt u) fs
  have hd : pack ((7, u.number) :: fs) / 2 ^ 7 = pack fs := pack_div 7 u.number fs
  simp only [readUreg, uregBits, List.cons_append, List.nil_append, h, hd, UReg.ofNumber_number, Option.map_some]

theorem readSreg_pack (r : SReg) (fs : List Field) : readSreg (pack (sregBits r ++ fs)) = some (r, pack fs) := by
  have h : pack ((4, r.number) :: fs) % 2 ^ 4 = r.number := pack_mod_of_lt (by cases r <;> decide) fs
  have hd : pack ((4, r.number) :: fs) / 2 ^ 4 = pack fs := pack_div 4 r.number fs
  have hr : SReg.ofNumber r.number = some r := by cases r <;> rfl
  simp only [readSreg, sregBits, List.cons_append, List.nil_append, h, hd, hr, Option.map_some]

/-- A reader after another, on the fields of both. -/
theorem bind_of_eq {α β : Type} {x : Reader α} {f : α → Reader β} {n m : Nat} {a : α} (h : x n = some (a, m)) :
    (x >>= f) n = f a m := by
  show (x n).bind (fun p => f p.1 p.2) = f a m
  rw [h]; rfl

theorem Compute.kind_lt (c : Compute) : c.kind < 2 ^ 2 := by cases c <;> exact Nat.le_of_ble_eq_true rfl

theorem Compute.body_lt (c : Compute) : c.body < 2 ^ 21 := by
  cases c <;> simp only [Compute.body] <;> omega

/-- An operation term is read back from its kind and body, but for a set of result registers that is empty, which no
instruction has. -/
theorem Compute.ofBody_body {c : Compute} (hc : checkCompute c = none) : Compute.ofBody c.kind c.body = c := by
  cases c with
  | none => rfl
  | quiet code =>
    simp [Compute.ofBody, Compute.kind, Compute.body]
  | single code d =>
    have h1 : (code.toNat + 2 ^ 13 * d.val) % 2 ^ 13 = code.toNat := by omega
    have h2 : (code.toNat + 2 ^ 13 * d.val) / 2 ^ 13 % 16 = d.val := by omega
    simp only [Compute.ofBody, Compute.kind, Compute.body, Compute.single.injEq]
    exact ⟨BitVec.eq_of_toNat_eq (by rw [BitVec.toNat_ofNat, h1]), Fin.ext h2⟩
  | double code d1 d2 =>
    have h1 : (code.toNat + 2 ^ 13 * d1.val + 2 ^ 17 * d2.val) % 2 ^ 13 = code.toNat := by omega
    have h2 : (code.toNat + 2 ^ 13 * d1.val + 2 ^ 17 * d2.val) / 2 ^ 13 % 16 = d1.val := by omega
    have h3 : (code.toNat + 2 ^ 13 * d1.val + 2 ^ 17 * d2.val) / 2 ^ 17 % 16 = d2.val := by omega
    simp only [Compute.ofBody, Compute.kind, Compute.body, Compute.double.injEq]
    exact ⟨BitVec.eq_of_toNat_eq (by rw [BitVec.toNat_ofNat, h1]), Fin.ext h2, Fin.ext h3⟩
  | multi code set =>
    have hs : set.toNat ≠ 0 := by
      intro h
      have : set = 0 := BitVec.eq_of_toNat_eq h
      subst this
      cases hc
    have h0 : code.toNat + 2 ^ 5 * set.toNat ≠ 0 := by omega
    have h1 : (code.toNat + 2 ^ 5 * set.toNat) % 2 ^ 5 = code.toNat := by omega
    have h2 : (code.toNat + 2 ^ 5 * set.toNat) / 2 ^ 5 % 2 ^ 16 = set.toNat := by omega
    have e1 : BitVec.ofNat 5 (code.toNat + 2 ^ 5 * set.toNat) = code :=
      BitVec.eq_of_toNat_eq (by rw [BitVec.toNat_ofNat, h1])
    have e2 : BitVec.ofNat 16 ((code.toNat + 2 ^ 5 * set.toNat) / 2 ^ 5) = set :=
      BitVec.eq_of_toNat_eq (by rw [BitVec.toNat_ofNat, h2])
    exact (if_neg h0).trans (congrArg₂ Compute.multi e1 e2)

theorem readCompute_pack {c : Compute} (hc : checkCompute c = none) (fs : List Field) :
    readCompute (pack (computeBits c ++ fs)) = some (c, pack fs) :=
  (bind_of_eq (readBits_pack (Compute.kind_lt c) _)).trans <| (bind_of_eq (readBits_pack (Compute.body_lt c) _)).trans <|
  congrArg (fun d => some (d, pack fs)) (Compute.ofBody_body hc)

theorem checkClause_operation {cl : Clause} (h : checkClause cl = none) : checkCompute cl.operation = none := by
  cases cl <;> first | rfl | exact h

theorem readClause_pack {cl : Clause} (h : checkClause cl = none) (fs : List Field) :
    readClause (pack (clauseBits cl ++ fs)) = some (cl, pack fs) :=
  (bind_of_eq (readBits_pack (by cases cl <;> exact Nat.le_of_ble_eq_true rfl) _)).trans <|
  (bind_of_eq (readCompute_pack (checkClause_operation h) _)).trans <| by cases cl <;> rfl

theorem readTarget_pack (t : Target) (fs : List Field) : readTarget (pack (targetBits t ++ fs)) = some (t, pack fs) :=
  (bind_of_eq (readFlag_pack t.isRelative _)).trans <| (bind_of_eq (readImm_pack t.field _)).trans <| by cases t <;> rfl

/-! ### Words and numbers -/

@[simp] theorem decode_encode_eq (i : Instr) : decode (encode i) = termOf (termNumber i) := by
  rw [decode, encode, Equiv.symm_apply_apply]

@[simp] theorem decode_wordCode (n : IWord) : decode (Config.wordCode n) = termOf n := by
  rw [decode, Equiv.symm_apply_apply]

/-- A word is a term's word exactly where its number is the term's. -/
theorem encode_eq_iff (i : Instr) (w : IWord) : encode i = w ↔ termNumber i = Config.wordCode.symm w := by
  rw [encode, Equiv.eq_symm_apply]

/-! ### Bytes -/

/-- The bytes of a number are decoded as the number is. -/
theorem decodeBytes_wordBytes (n : IWord) :
    decodeBytes (wordBytes n) = match termOf n with
      | .ok i => .ok (i, [])
      | .error e => .error e := by
  have h : BitVec.ofNat 48 (joinBytes (wordBytes n)) = n := by
    apply BitVec.eq_of_toNat_eq
    rw [wordBytes, Machine.joinBytes_splitBytes, BitVec.toNat_ofNat]
    have := n.isLt
    omega
  show (match termOf (BitVec.ofNat 48 (joinBytes (wordBytes n))) with
    | .ok i => Except.ok (i, [])
    | .error e => Except.error e) = _
  rw [h]

/-- The bytes of a placed term are read where it was placed. -/
theorem codeBytes_placeCode (p : PAddr) (n : IWord) (s : Machine.State) :
    (Machine.placeCode p n s).codeBytes p = some (wordBytes n) :=
  Machine.Memory.readBytes_writeBytes (wordBytes n) s.code (Machine.codeCell p)

end Sys2Proof.Laws
end

