-- ==== Sys2Proof/Laws/State.lean ====
section
/-! SUPPORT. What the register operations leave alone: one lemma per field per operation. -/

namespace Sys2Proof.Machine

/-! ### `latch` -/

@[simp] theorem latch_pc (n : Interrupt) (s : State) : (latch n s).pc = s.pc := rfl
@[simp] theorem latch_dly (n : Interrupt) (s : State) : (latch n s).dly = s.dly := rfl
@[simp] theorem latch_idle (n : Interrupt) (s : State) : (latch n s).idle = s.idle := rfl
@[simp] theorem latch_regs (n : Interrupt) (s : State) : (latch n s).regs = s.regs := rfl
@[simp] theorem latch_regsAlt (n : Interrupt) (s : State) : (latch n s).regsAlt = s.regsAlt := rfl
@[simp] theorem latch_dag (n : Interrupt) (s : State) : (latch n s).dag = s.dag := rfl
@[simp] theorem latch_dagAlt (n : Interrupt) (s : State) : (latch n s).dagAlt = s.dagAlt := rfl
@[simp] theorem latch_mr (n : Interrupt) (s : State) : (latch n s).mr = s.mr := rfl
@[simp] theorem latch_mrAlt (n : Interrupt) (s : State) : (latch n s).mrAlt = s.mrAlt := rfl
@[simp] theorem latch_pcStack (n : Interrupt) (s : State) : (latch n s).pcStack = s.pcStack := rfl
@[simp] theorem latch_loopStack (n : Interrupt) (s : State) : (latch n s).loopStack = s.loopStack := rfl
@[simp] theorem latch_statusStack (n : Interrupt) (s : State) : (latch n s).statusStack = s.statusStack := rfl
@[simp] theorem latch_lcntr (n : Interrupt) (s : State) : (latch n s).lcntr = s.lcntr := rfl
@[simp] theorem latch_laddr (n : Interrupt) (s : State) : (latch n s).laddr = s.laddr := rfl
@[simp] theorem latch_astat (n : Interrupt) (s : State) : (latch n s).astat = s.astat := rfl
@[simp] theorem latch_mode1 (n : Interrupt) (s : State) : (latch n s).mode1 = s.mode1 := rfl
@[simp] theorem latch_mode2 (n : Interrupt) (s : State) : (latch n s).mode2 = s.mode2 := rfl
@[simp] theorem latch_mmask (n : Interrupt) (s : State) : (latch n s).mmask = s.mmask := rfl
@[simp] theorem latch_imask (n : Interrupt) (s : State) : (latch n s).imask = s.imask := rfl
@[simp] theorem latch_ustat1 (n : Interrupt) (s : State) : (latch n s).ustat1 = s.ustat1 := rfl
@[simp] theorem latch_tcount (n : Interrupt) (s : State) : (latch n s).tcount = s.tcount := rfl
@[simp] theorem latch_tperiod (n : Interrupt) (s : State) : (latch n s).tperiod = s.tperiod := rfl
@[simp] theorem latch_ioflag (n : Interrupt) (s : State) : (latch n s).ioflag = s.ioflag := rfl
@[simp] theorem latch_isrv (n : Interrupt) (s : State) : (latch n s).isrv = s.isrv := rfl
@[simp] theorem latch_timexp (n : Interrupt) (s : State) : (latch n s).timexp = s.timexp := rfl
@[simp] theorem latch_flagPins (n : Interrupt) (s : State) : (latch n s).flagPins = s.flagPins := rfl
@[simp] theorem latch_code (n : Interrupt) (s : State) : (latch n s).code = s.code := rfl
@[simp] theorem latch_mem (n : Interrupt) (s : State) : (latch n s).mem = s.mem := rfl
@[simp] theorem latch_memMap (n : Interrupt) (s : State) : (latch n s).memMap = s.memMap := rfl
@[simp] theorem latch_noBoot (n : Interrupt) (s : State) : (latch n s).noBoot = s.noBoot := rfl
@[simp] theorem latch_env (n : Interrupt) (s : State) : (latch n s).env = s.env := rfl
@[simp] theorem latch_mode1Act (n : Interrupt) (s : State) : (latch n s).mode1Act = s.mode1Act := rfl
@[simp] theorem latch_mode1Wrote (n : Interrupt) (s : State) : (latch n s).mode1Wrote = s.mode1Wrote := rfl
@[simp] theorem latch_irqWait (n : Interrupt) (s : State) : (latch n s).irqWait = s.irqWait := rfl
@[simp] theorem latch_cycle (n : Interrupt) (s : State) : (latch n s).cycle = s.cycle := rfl

/-! ### `unlatch` -/

@[simp] theorem unlatch_pc (n : Interrupt) (s : State) : (unlatch n s).pc = s.pc := rfl
@[simp] theorem unlatch_dly (n : Interrupt) (s : State) : (unlatch n s).dly = s.dly := rfl
@[simp] theorem unlatch_idle (n : Interrupt) (s : State) : (unlatch n s).idle = s.idle := rfl
@[simp] theorem unlatch_regs (n : Interrupt) (s : State) : (unlatch n s).regs = s.regs := rfl
@[simp] theorem unlatch_regsAlt (n : Interrupt) (s : State) : (unlatch n s).regsAlt = s.regsAlt := rfl
@[simp] theorem unlatch_dag (n : Interrupt) (s : State) : (unlatch n s).dag = s.dag := rfl
@[simp] theorem unlatch_dagAlt (n : Interrupt) (s : State) : (unlatch n s).dagAlt = s.dagAlt := rfl
@[simp] theorem unlatch_mr (n : Interrupt) (s : State) : (unlatch n s).mr = s.mr := rfl
@[simp] theorem unlatch_mrAlt (n : Interrupt) (s : State) : (unlatch n s).mrAlt = s.mrAlt := rfl
@[simp] theorem unlatch_pcStack (n : Interrupt) (s : State) : (unlatch n s).pcStack = s.pcStack := rfl
@[simp] theorem unlatch_loopStack (n : Interrupt) (s : State) : (unlatch n s).loopStack = s.loopStack := rfl
@[simp] theorem unlatch_statusStack (n : Interrupt) (s : State) : (unlatch n s).statusStack = s.statusStack := rfl
@[simp] theorem unlatch_lcntr (n : Interrupt) (s : State) : (unlatch n s).lcntr = s.lcntr := rfl
@[simp] theorem unlatch_laddr (n : Interrupt) (s : State) : (unlatch n s).laddr = s.laddr := rfl
@[simp] theorem unlatch_astat (n : Interrupt) (s : State) : (unlatch n s).astat = s.astat := rfl
@[simp] theorem unlatch_mode1 (n : Interrupt) (s : State) : (unlatch n s).mode1 = s.mode1 := rfl
@[simp] theorem unlatch_mode2 (n : Interrupt) (s : State) : (unlatch n s).mode2 = s.mode2 := rfl
@[simp] theorem unlatch_mmask (n : Interrupt) (s : State) : (unlatch n s).mmask = s.mmask := rfl
@[simp] theorem unlatch_imask (n : Interrupt) (s : State) : (unlatch n s).imask = s.imask := rfl
@[simp] theorem unlatch_ustat1 (n : Interrupt) (s : State) : (unlatch n s).ustat1 = s.ustat1 := rfl
@[simp] theorem unlatch_tcount (n : Interrupt) (s : State) : (unlatch n s).tcount = s.tcount := rfl
@[simp] theorem unlatch_tperiod (n : Interrupt) (s : State) : (unlatch n s).tperiod = s.tperiod := rfl
@[simp] theorem unlatch_ioflag (n : Interrupt) (s : State) : (unlatch n s).ioflag = s.ioflag := rfl
@[simp] theorem unlatch_isrv (n : Interrupt) (s : State) : (unlatch n s).isrv = s.isrv := rfl
@[simp] theorem unlatch_timexp (n : Interrupt) (s : State) : (unlatch n s).timexp = s.timexp := rfl
@[simp] theorem unlatch_flagPins (n : Interrupt) (s : State) : (unlatch n s).flagPins = s.flagPins := rfl
@[simp] theorem unlatch_code (n : Interrupt) (s : State) : (unlatch n s).code = s.code := rfl
@[simp] theorem unlatch_mem (n : Interrupt) (s : State) : (unlatch n s).mem = s.mem := rfl
@[simp] theorem unlatch_memMap (n : Interrupt) (s : State) : (unlatch n s).memMap = s.memMap := rfl
@[simp] theorem unlatch_noBoot (n : Interrupt) (s : State) : (unlatch n s).noBoot = s.noBoot := rfl
@[simp] theorem unlatch_env (n : Interrupt) (s : State) : (unlatch n s).env = s.env := rfl
@[simp] theorem unlatch_mode1Act (n : Interrupt) (s : State) : (unlatch n s).mode1Act = s.mode1Act := rfl
@[simp] theorem unlatch_mode1Wrote (n : Interrupt) (s : State) : (unlatch n s).mode1Wrote = s.mode1Wrote := rfl
@[simp] theorem unlatch_irqWait (n : Interrupt) (s : State) : (unlatch n s).irqWait = s.irqWait := rfl
@[simp] theorem unlatch_cycle (n : Interrupt) (s : State) : (unlatch n s).cycle = s.cycle := rfl

/-! ### `setR` -/

@[simp] theorem setR_pc (n : DReg) (v : Word) (s : State) : (setR n v s).pc = s.pc := rfl
@[simp] theorem setR_dly (n : DReg) (v : Word) (s : State) : (setR n v s).dly = s.dly := rfl
@[simp] theorem setR_idle (n : DReg) (v : Word) (s : State) : (setR n v s).idle = s.idle := rfl
@[simp] theorem setR_dag (n : DReg) (v : Word) (s : State) : (setR n v s).dag = s.dag := rfl
@[simp] theorem setR_dagAlt (n : DReg) (v : Word) (s : State) : (setR n v s).dagAlt = s.dagAlt := rfl
@[simp] theorem setR_mr (n : DReg) (v : Word) (s : State) : (setR n v s).mr = s.mr := rfl
@[simp] theorem setR_mrAlt (n : DReg) (v : Word) (s : State) : (setR n v s).mrAlt = s.mrAlt := rfl
@[simp] theorem setR_pcStack (n : DReg) (v : Word) (s : State) : (setR n v s).pcStack = s.pcStack := rfl
@[simp] theorem setR_loopStack (n : DReg) (v : Word) (s : State) : (setR n v s).loopStack = s.loopStack := rfl
@[simp] theorem setR_statusStack (n : DReg) (v : Word) (s : State) : (setR n v s).statusStack = s.statusStack := rfl
@[simp] theorem setR_lcntr (n : DReg) (v : Word) (s : State) : (setR n v s).lcntr = s.lcntr := rfl
@[simp] theorem setR_laddr (n : DReg) (v : Word) (s : State) : (setR n v s).laddr = s.laddr := rfl
@[simp] theorem setR_astat (n : DReg) (v : Word) (s : State) : (setR n v s).astat = s.astat := rfl
@[simp] theorem setR_mode1 (n : DReg) (v : Word) (s : State) : (setR n v s).mode1 = s.mode1 := rfl
@[simp] theorem setR_mode2 (n : DReg) (v : Word) (s : State) : (setR n v s).mode2 = s.mode2 := rfl
@[simp] theorem setR_mmask (n : DReg) (v : Word) (s : State) : (setR n v s).mmask = s.mmask := rfl
@[simp] theorem setR_irptl (n : DReg) (v : Word) (s : State) : (setR n v s).irptl = s.irptl := rfl
@[simp] theorem setR_imask (n : DReg) (v : Word) (s : State) : (setR n v s).imask = s.imask := rfl
@[simp] theorem setR_lirptl (n : DReg) (v : Word) (s : State) : (setR n v s).lirptl = s.lirptl := rfl
@[simp] theorem setR_ustat1 (n : DReg) (v : Word) (s : State) : (setR n v s).ustat1 = s.ustat1 := rfl
@[simp] theorem setR_tcount (n : DReg) (v : Word) (s : State) : (setR n v s).tcount = s.tcount := rfl
@[simp] theorem setR_tperiod (n : DReg) (v : Word) (s : State) : (setR n v s).tperiod = s.tperiod := rfl
@[simp] theorem setR_ioflag (n : DReg) (v : Word) (s : State) : (setR n v s).ioflag = s.ioflag := rfl
@[simp] theorem setR_isrv (n : DReg) (v : Word) (s : State) : (setR n v s).isrv = s.isrv := rfl
@[simp] theorem setR_timexp (n : DReg) (v : Word) (s : State) : (setR n v s).timexp = s.timexp := rfl
@[simp] theorem setR_flagPins (n : DReg) (v : Word) (s : State) : (setR n v s).flagPins = s.flagPins := rfl
@[simp] theorem setR_code (n : DReg) (v : Word) (s : State) : (setR n v s).code = s.code := rfl
@[simp] theorem setR_mem (n : DReg) (v : Word) (s : State) : (setR n v s).mem = s.mem := rfl
@[simp] theorem setR_memMap (n : DReg) (v : Word) (s : State) : (setR n v s).memMap = s.memMap := rfl
@[simp] theorem setR_noBoot (n : DReg) (v : Word) (s : State) : (setR n v s).noBoot = s.noBoot := rfl
@[simp] theorem setR_env (n : DReg) (v : Word) (s : State) : (setR n v s).env = s.env := rfl
@[simp] theorem setR_mode1Act (n : DReg) (v : Word) (s : State) : (setR n v s).mode1Act = s.mode1Act := rfl
@[simp] theorem setR_mode1Wrote (n : DReg) (v : Word) (s : State) : (setR n v s).mode1Wrote = s.mode1Wrote := rfl
@[simp] theorem setR_irqWait (n : DReg) (v : Word) (s : State) : (setR n v s).irqWait = s.irqWait := rfl
@[simp] theorem setR_cycle (n : DReg) (v : Word) (s : State) : (setR n v s).cycle = s.cycle := rfl

/-! ### `setDag` -/

@[simp] theorem setDag_pc (n : Fin 16) (d : DagRegs) (s : State) : (setDag n d s).pc = s.pc := rfl
@[simp] theorem setDag_dly (n : Fin 16) (d : DagRegs) (s : State) : (setDag n d s).dly = s.dly := rfl
@[simp] theorem setDag_idle (n : Fin 16) (d : DagRegs) (s : State) : (setDag n d s).idle = s.idle := rfl
@[simp] theorem setDag_regs (n : Fin 16) (d : DagRegs) (s : State) : (setDag n d s).regs = s.regs := rfl
@[simp] theorem setDag_regsAlt (n : Fin 16) (d : DagRegs) (s : State) : (setDag n d s).regsAlt = s.regsAlt := rfl
@[simp] theorem setDag_mr (n : Fin 16) (d : DagRegs) (s : State) : (setDag n d s).mr = s.mr := rfl
@[simp] theorem setDag_mrAlt (n : Fin 16) (d : DagRegs) (s : State) : (setDag n d s).mrAlt = s.mrAlt := rfl
@[simp] theorem setDag_pcStack (n : Fin 16) (d : DagRegs) (s : State) : (setDag n d s).pcStack = s.pcStack := rfl
@[simp] theorem setDag_loopStack (n : Fin 16) (d : DagRegs) (s : State) : (setDag n d s).loopStack = s.loopStack := rfl
@[simp] theorem setDag_statusStack (n : Fin 16) (d : DagRegs) (s : State) : (setDag n d s).statusStack = s.statusStack := rfl
@[simp] theorem setDag_lcntr (n : Fin 16) (d : DagRegs) (s : State) : (setDag n d s).lcntr = s.lcntr := rfl
@[simp] theorem setDag_laddr (n : Fin 16) (d : DagRegs) (s : State) : (setDag n d s).laddr = s.laddr := rfl
@[simp] theorem setDag_astat (n : Fin 16) (d : DagRegs) (s : State) : (setDag n d s).astat = s.astat := rfl
@[simp] theorem setDag_mode1 (n : Fin 16) (d : DagRegs) (s : State) : (setDag n d s).mode1 = s.mode1 := rfl
@[simp] theorem setDag_mode2 (n : Fin 16) (d : DagRegs) (s : State) : (setDag n d s).mode2 = s.mode2 := rfl
@[simp] theorem setDag_mmask (n : Fin 16) (d : DagRegs) (s : State) : (setDag n d s).mmask = s.mmask := rfl
@[simp] theorem setDag_irptl (n : Fin 16) (d : DagRegs) (s : State) : (setDag n d s).irptl = s.irptl := rfl
@[simp] theorem setDag_imask (n : Fin 16) (d : DagRegs) (s : State) : (setDag n d s).imask = s.imask := rfl
@[simp] theorem setDag_lirptl (n : Fin 16) (d : DagRegs) (s : State) : (setDag n d s).lirptl = s.lirptl := rfl
@[simp] theorem setDag_ustat1 (n : Fin 16) (d : DagRegs) (s : State) : (setDag n d s).ustat1 = s.ustat1 := rfl
@[simp] theorem setDag_tcount (n : Fin 16) (d : DagRegs) (s : State) : (setDag n d s).tcount = s.tcount := rfl
@[simp] theorem setDag_tperiod (n : Fin 16) (d : DagRegs) (s : State) : (setDag n d s).tperiod = s.tperiod := rfl
@[simp] theorem setDag_ioflag (n : Fin 16) (d : DagRegs) (s : State) : (setDag n d s).ioflag = s.ioflag := rfl
@[simp] theorem setDag_isrv (n : Fin 16) (d : DagRegs) (s : State) : (setDag n d s).isrv = s.isrv := rfl
@[simp] theorem setDag_timexp (n : Fin 16) (d : DagRegs) (s : State) : (setDag n d s).timexp = s.timexp := rfl
@[simp] theorem setDag_flagPins (n : Fin 16) (d : DagRegs) (s : State) : (setDag n d s).flagPins = s.flagPins := rfl
@[simp] theorem setDag_code (n : Fin 16) (d : DagRegs) (s : State) : (setDag n d s).code = s.code := rfl
@[simp] theorem setDag_mem (n : Fin 16) (d : DagRegs) (s : State) : (setDag n d s).mem = s.mem := rfl
@[simp] theorem setDag_memMap (n : Fin 16) (d : DagRegs) (s : State) : (setDag n d s).memMap = s.memMap := rfl
@[simp] theorem setDag_noBoot (n : Fin 16) (d : DagRegs) (s : State) : (setDag n d s).noBoot = s.noBoot := rfl
@[simp] theorem setDag_env (n : Fin 16) (d : DagRegs) (s : State) : (setDag n d s).env = s.env := rfl
@[simp] theorem setDag_mode1Act (n : Fin 16) (d : DagRegs) (s : State) : (setDag n d s).mode1Act = s.mode1Act := rfl
@[simp] theorem setDag_mode1Wrote (n : Fin 16) (d : DagRegs) (s : State) : (setDag n d s).mode1Wrote = s.mode1Wrote := rfl
@[simp] theorem setDag_irqWait (n : Fin 16) (d : DagRegs) (s : State) : (setDag n d s).irqWait = s.irqWait := rfl
@[simp] theorem setDag_cycle (n : Fin 16) (d : DagRegs) (s : State) : (setDag n d s).cycle = s.cycle := rfl

/-! ### `setI` -/

@[simp] theorem setI_pc (n : Fin 16) (v : Word) (s : State) : (setI n v s).pc = s.pc := rfl
@[simp] theorem setI_dly (n : Fin 16) (v : Word) (s : State) : (setI n v s).dly = s.dly := rfl
@[simp] theorem setI_idle (n : Fin 16) (v : Word) (s : State) : (setI n v s).idle = s.idle := rfl
@[simp] theorem setI_regs (n : Fin 16) (v : Word) (s : State) : (setI n v s).regs = s.regs := rfl
@[simp] theorem setI_regsAlt (n : Fin 16) (v : Word) (s : State) : (setI n v s).regsAlt = s.regsAlt := rfl
@[simp] theorem setI_mr (n : Fin 16) (v : Word) (s : State) : (setI n v s).mr = s.mr := rfl
@[simp] theorem setI_mrAlt (n : Fin 16) (v : Word) (s : State) : (setI n v s).mrAlt = s.mrAlt := rfl
@[simp] theorem setI_pcStack (n : Fin 16) (v : Word) (s : State) : (setI n v s).pcStack = s.pcStack := rfl
@[simp] theorem setI_loopStack (n : Fin 16) (v : Word) (s : State) : (setI n v s).loopStack = s.loopStack := rfl
@[simp] theorem setI_statusStack (n : Fin 16) (v : Word) (s : State) : (setI n v s).statusStack = s.statusStack := rfl
@[simp] theorem setI_lcntr (n : Fin 16) (v : Word) (s : State) : (setI n v s).lcntr = s.lcntr := rfl
@[simp] theorem setI_laddr (n : Fin 16) (v : Word) (s : State) : (setI n v s).laddr = s.laddr := rfl
@[simp] theorem setI_astat (n : Fin 16) (v : Word) (s : State) : (setI n v s).astat = s.astat := rfl
@[simp] theorem setI_mode1 (n : Fin 16) (v : Word) (s : State) : (setI n v s).mode1 = s.mode1 := rfl
@[simp] theorem setI_mode2 (n : Fin 16) (v : Word) (s : State) : (setI n v s).mode2 = s.mode2 := rfl
@[simp] theorem setI_mmask (n : Fin 16) (v : Word) (s : State) : (setI n v s).mmask = s.mmask := rfl
@[simp] theorem setI_irptl (n : Fin 16) (v : Word) (s : State) : (setI n v s).irptl = s.irptl := rfl
@[simp] theorem setI_imask (n : Fin 16) (v : Word) (s : State) : (setI n v s).imask = s.imask := rfl
@[simp] theorem setI_lirptl (n : Fin 16) (v : Word) (s : State) : (setI n v s).lirptl = s.lirptl := rfl
@[simp] theorem setI_ustat1 (n : Fin 16) (v : Word) (s : State) : (setI n v s).ustat1 = s.ustat1 := rfl
@[simp] theorem setI_tcount (n : Fin 16) (v : Word) (s : State) : (setI n v s).tcount = s.tcount := rfl
@[simp] theorem setI_tperiod (n : Fin 16) (v : Word) (s : State) : (setI n v s).tperiod = s.tperiod := rfl
@[simp] theorem setI_ioflag (n : Fin 16) (v : Word) (s : State) : (setI n v s).ioflag = s.ioflag := rfl
@[simp] theorem setI_isrv (n : Fin 16) (v : Word) (s : State) : (setI n v s).isrv = s.isrv := rfl
@[simp] theorem setI_timexp (n : Fin 16) (v : Word) (s : State) : (setI n v s).timexp = s.timexp := rfl
@[simp] theorem setI_flagPins (n : Fin 16) (v : Word) (s : State) : (setI n v s).flagPins = s.flagPins := rfl
@[simp] theorem setI_code (n : Fin 16) (v : Word) (s : State) : (setI n v s).code = s.code := rfl
@[simp] theorem setI_mem (n : Fin 16) (v : Word) (s : State) : (setI n v s).mem = s.mem := rfl
@[simp] theorem setI_memMap (n : Fin 16) (v : Word) (s : State) : (setI n v s).memMap = s.memMap := rfl
@[simp] theorem setI_noBoot (n : Fin 16) (v : Word) (s : State) : (setI n v s).noBoot = s.noBoot := rfl
@[simp] theorem setI_env (n : Fin 16) (v : Word) (s : State) : (setI n v s).env = s.env := rfl
@[simp] theorem setI_mode1Act (n : Fin 16) (v : Word) (s : State) : (setI n v s).mode1Act = s.mode1Act := rfl
@[simp] theorem setI_mode1Wrote (n : Fin 16) (v : Word) (s : State) : (setI n v s).mode1Wrote = s.mode1Wrote := rfl
@[simp] theorem setI_irqWait (n : Fin 16) (v : Word) (s : State) : (setI n v s).irqWait = s.irqWait := rfl
@[simp] theorem setI_cycle (n : Fin 16) (v : Word) (s : State) : (setI n v s).cycle = s.cycle := rfl

/-! ### `setM` -/

@[simp] theorem setM_pc (n : Fin 16) (v : Word) (s : State) : (setM n v s).pc = s.pc := rfl
@[simp] theorem setM_dly (n : Fin 16) (v : Word) (s : State) : (setM n v s).dly = s.dly := rfl
@[simp] theorem setM_idle (n : Fin 16) (v : Word) (s : State) : (setM n v s).idle = s.idle := rfl
@[simp] theorem setM_regs (n : Fin 16) (v : Word) (s : State) : (setM n v s).regs = s.regs := rfl
@[simp] theorem setM_regsAlt (n : Fin 16) (v : Word) (s : State) : (setM n v s).regsAlt = s.regsAlt := rfl
@[simp] theorem setM_mr (n : Fin 16) (v : Word) (s : State) : (setM n v s).mr = s.mr := rfl
@[simp] theorem setM_mrAlt (n : Fin 16) (v : Word) (s : State) : (setM n v s).mrAlt = s.mrAlt := rfl
@[simp] theorem setM_pcStack (n : Fin 16) (v : Word) (s : State) : (setM n v s).pcStack = s.pcStack := rfl
@[simp] theorem setM_loopStack (n : Fin 16) (v : Word) (s : State) : (setM n v s).loopStack = s.loopStack := rfl
@[simp] theorem setM_statusStack (n : Fin 16) (v : Word) (s : State) : (setM n v s).statusStack = s.statusStack := rfl
@[simp] theorem setM_lcntr (n : Fin 16) (v : Word) (s : State) : (setM n v s).lcntr = s.lcntr := rfl
@[simp] theorem setM_laddr (n : Fin 16) (v : Word) (s : State) : (setM n v s).laddr = s.laddr := rfl
@[simp] theorem setM_astat (n : Fin 16) (v : Word) (s : State) : (setM n v s).astat = s.astat := rfl
@[simp] theorem setM_mode1 (n : Fin 16) (v : Word) (s : State) : (setM n v s).mode1 = s.mode1 := rfl
@[simp] theorem setM_mode2 (n : Fin 16) (v : Word) (s : State) : (setM n v s).mode2 = s.mode2 := rfl
@[simp] theorem setM_mmask (n : Fin 16) (v : Word) (s : State) : (setM n v s).mmask = s.mmask := rfl
@[simp] theorem setM_irptl (n : Fin 16) (v : Word) (s : State) : (setM n v s).irptl = s.irptl := rfl
@[simp] theorem setM_imask (n : Fin 16) (v : Word) (s : State) : (setM n v s).imask = s.imask := rfl
@[simp] theorem setM_lirptl (n : Fin 16) (v : Word) (s : State) : (setM n v s).lirptl = s.lirptl := rfl
@[simp] theorem setM_ustat1 (n : Fin 16) (v : Word) (s : State) : (setM n v s).ustat1 = s.ustat1 := rfl
@[simp] theorem setM_tcount (n : Fin 16) (v : Word) (s : State) : (setM n v s).tcount = s.tcount := rfl
@[simp] theorem setM_tperiod (n : Fin 16) (v : Word) (s : State) : (setM n v s).tperiod = s.tperiod := rfl
@[simp] theorem setM_ioflag (n : Fin 16) (v : Word) (s : State) : (setM n v s).ioflag = s.ioflag := rfl
@[simp] theorem setM_isrv (n : Fin 16) (v : Word) (s : State) : (setM n v s).isrv = s.isrv := rfl
@[simp] theorem setM_timexp (n : Fin 16) (v : Word) (s : State) : (setM n v s).timexp = s.timexp := rfl
@[simp] theorem setM_flagPins (n : Fin 16) (v : Word) (s : State) : (setM n v s).flagPins = s.flagPins := rfl
@[simp] theorem setM_code (n : Fin 16) (v : Word) (s : State) : (setM n v s).code = s.code := rfl
@[simp] theorem setM_mem (n : Fin 16) (v : Word) (s : State) : (setM n v s).mem = s.mem := rfl
@[simp] theorem setM_memMap (n : Fin 16) (v : Word) (s : State) : (setM n v s).memMap = s.memMap := rfl
@[simp] theorem setM_noBoot (n : Fin 16) (v : Word) (s : State) : (setM n v s).noBoot = s.noBoot := rfl
@[simp] theorem setM_env (n : Fin 16) (v : Word) (s : State) : (setM n v s).env = s.env := rfl
@[simp] theorem setM_mode1Act (n : Fin 16) (v : Word) (s : State) : (setM n v s).mode1Act = s.mode1Act := rfl
@[simp] theorem setM_mode1Wrote (n : Fin 16) (v : Word) (s : State) : (setM n v s).mode1Wrote = s.mode1Wrote := rfl
@[simp] theorem setM_irqWait (n : Fin 16) (v : Word) (s : State) : (setM n v s).irqWait = s.irqWait := rfl
@[simp] theorem setM_cycle (n : Fin 16) (v : Word) (s : State) : (setM n v s).cycle = s.cycle := rfl

/-! ### `setL` -/

@[simp] theorem setL_pc (n : Fin 16) (v : Word) (s : State) : (setL n v s).pc = s.pc := rfl
@[simp] theorem setL_dly (n : Fin 16) (v : Word) (s : State) : (setL n v s).dly = s.dly := rfl
@[simp] theorem setL_idle (n : Fin 16) (v : Word) (s : State) : (setL n v s).idle = s.idle := rfl
@[simp] theorem setL_regs (n : Fin 16) (v : Word) (s : State) : (setL n v s).regs = s.regs := rfl
@[simp] theorem setL_regsAlt (n : Fin 16) (v : Word) (s : State) : (setL n v s).regsAlt = s.regsAlt := rfl
@[simp] theorem setL_mr (n : Fin 16) (v : Word) (s : State) : (setL n v s).mr = s.mr := rfl
@[simp] theorem setL_mrAlt (n : Fin 16) (v : Word) (s : State) : (setL n v s).mrAlt = s.mrAlt := rfl
@[simp] theorem setL_pcStack (n : Fin 16) (v : Word) (s : State) : (setL n v s).pcStack = s.pcStack := rfl
@[simp] theorem setL_loopStack (n : Fin 16) (v : Word) (s : State) : (setL n v s).loopStack = s.loopStack := rfl
@[simp] theorem setL_statusStack (n : Fin 16) (v : Word) (s : State) : (setL n v s).statusStack = s.statusStack := rfl
@[simp] theorem setL_lcntr (n : Fin 16) (v : Word) (s : State) : (setL n v s).lcntr = s.lcntr := rfl
@[simp] theorem setL_laddr (n : Fin 16) (v : Word) (s : State) : (setL n v s).laddr = s.laddr := rfl
@[simp] theorem setL_astat (n : Fin 16) (v : Word) (s : State) : (setL n v s).astat = s.astat := rfl
@[simp] theorem setL_mode1 (n : Fin 16) (v : Word) (s : State) : (setL n v s).mode1 = s.mode1 := rfl
@[simp] theorem setL_mode2 (n : Fin 16) (v : Word) (s : State) : (setL n v s).mode2 = s.mode2 := rfl
@[simp] theorem setL_mmask (n : Fin 16) (v : Word) (s : State) : (setL n v s).mmask = s.mmask := rfl
@[simp] theorem setL_irptl (n : Fin 16) (v : Word) (s : State) : (setL n v s).irptl = s.irptl := rfl
@[simp] theorem setL_imask (n : Fin 16) (v : Word) (s : State) : (setL n v s).imask = s.imask := rfl
@[simp] theorem setL_lirptl (n : Fin 16) (v : Word) (s : State) : (setL n v s).lirptl = s.lirptl := rfl
@[simp] theorem setL_ustat1 (n : Fin 16) (v : Word) (s : State) : (setL n v s).ustat1 = s.ustat1 := rfl
@[simp] theorem setL_tcount (n : Fin 16) (v : Word) (s : State) : (setL n v s).tcount = s.tcount := rfl
@[simp] theorem setL_tperiod (n : Fin 16) (v : Word) (s : State) : (setL n v s).tperiod = s.tperiod := rfl
@[simp] theorem setL_ioflag (n : Fin 16) (v : Word) (s : State) : (setL n v s).ioflag = s.ioflag := rfl
@[simp] theorem setL_isrv (n : Fin 16) (v : Word) (s : State) : (setL n v s).isrv = s.isrv := rfl
@[simp] theorem setL_timexp (n : Fin 16) (v : Word) (s : State) : (setL n v s).timexp = s.timexp := rfl
@[simp] theorem setL_flagPins (n : Fin 16) (v : Word) (s : State) : (setL n v s).flagPins = s.flagPins := rfl
@[simp] theorem setL_code (n : Fin 16) (v : Word) (s : State) : (setL n v s).code = s.code := rfl
@[simp] theorem setL_mem (n : Fin 16) (v : Word) (s : State) : (setL n v s).mem = s.mem := rfl
@[simp] theorem setL_memMap (n : Fin 16) (v : Word) (s : State) : (setL n v s).memMap = s.memMap := rfl
@[simp] theorem setL_noBoot (n : Fin 16) (v : Word) (s : State) : (setL n v s).noBoot = s.noBoot := rfl
@[simp] theorem setL_env (n : Fin 16) (v : Word) (s : State) : (setL n v s).env = s.env := rfl
@[simp] theorem setL_mode1Act (n : Fin 16) (v : Word) (s : State) : (setL n v s).mode1Act = s.mode1Act := rfl
@[simp] theorem setL_mode1Wrote (n : Fin 16) (v : Word) (s : State) : (setL n v s).mode1Wrote = s.mode1Wrote := rfl
@[simp] theorem setL_irqWait (n : Fin 16) (v : Word) (s : State) : (setL n v s).irqWait = s.irqWait := rfl
@[simp] theorem setL_cycle (n : Fin 16) (v : Word) (s : State) : (setL n v s).cycle = s.cycle := rfl

/-! ### `setB` -/

@[simp] theorem setB_pc (n : Fin 16) (v : Word) (s : State) : (setB n v s).pc = s.pc := rfl
@[simp] theorem setB_dly (n : Fin 16) (v : Word) (s : State) : (setB n v s).dly = s.dly := rfl
@[simp] theorem setB_idle (n : Fin 16) (v : Word) (s : State) : (setB n v s).idle = s.idle := rfl
@[simp] theorem setB_regs (n : Fin 16) (v : Word) (s : State) : (setB n v s).regs = s.regs := rfl
@[simp] theorem setB_regsAlt (n : Fin 16) (v : Word) (s : State) : (setB n v s).regsAlt = s.regsAlt := rfl
@[simp] theorem setB_mr (n : Fin 16) (v : Word) (s : State) : (setB n v s).mr = s.mr := rfl
@[simp] theorem setB_mrAlt (n : Fin 16) (v : Word) (s : State) : (setB n v s).mrAlt = s.mrAlt := rfl
@[simp] theorem setB_pcStack (n : Fin 16) (v : Word) (s : State) : (setB n v s).pcStack = s.pcStack := rfl
@[simp] theorem setB_loopStack (n : Fin 16) (v : Word) (s : State) : (setB n v s).loopStack = s.loopStack := rfl
@[simp] theorem setB_statusStack (n : Fin 16) (v : Word) (s : State) : (setB n v s).statusStack = s.statusStack := rfl
@[simp] theorem setB_lcntr (n : Fin 16) (v : Word) (s : State) : (setB n v s).lcntr = s.lcntr := rfl
@[simp] theorem setB_laddr (n : Fin 16) (v : Word) (s : State) : (setB n v s).laddr = s.laddr := rfl
@[simp] theorem setB_astat (n : Fin 16) (v : Word) (s : State) : (setB n v s).astat = s.astat := rfl
@[simp] theorem setB_mode1 (n : Fin 16) (v : Word) (s : State) : (setB n v s).mode1 = s.mode1 := rfl
@[simp] theorem setB_mode2 (n : Fin 16) (v : Word) (s : State) : (setB n v s).mode2 = s.mode2 := rfl
@[simp] theorem setB_mmask (n : Fin 16) (v : Word) (s : State) : (setB n v s).mmask = s.mmask := rfl
@[simp] theorem setB_irptl (n : Fin 16) (v : Word) (s : State) : (setB n v s).irptl = s.irptl := rfl
@[simp] theorem setB_imask (n : Fin 16) (v : Word) (s : State) : (setB n v s).imask = s.imask := rfl
@[simp] theorem setB_lirptl (n : Fin 16) (v : Word) (s : State) : (setB n v s).lirptl = s.lirptl := rfl
@[simp] theorem setB_ustat1 (n : Fin 16) (v : Word) (s : State) : (setB n v s).ustat1 = s.ustat1 := rfl
@[simp] theorem setB_tcount (n : Fin 16) (v : Word) (s : State) : (setB n v s).tcount = s.tcount := rfl
@[simp] theorem setB_tperiod (n : Fin 16) (v : Word) (s : State) : (setB n v s).tperiod = s.tperiod := rfl
@[simp] theorem setB_ioflag (n : Fin 16) (v : Word) (s : State) : (setB n v s).ioflag = s.ioflag := rfl
@[simp] theorem setB_isrv (n : Fin 16) (v : Word) (s : State) : (setB n v s).isrv = s.isrv := rfl
@[simp] theorem setB_timexp (n : Fin 16) (v : Word) (s : State) : (setB n v s).timexp = s.timexp := rfl
@[simp] theorem setB_flagPins (n : Fin 16) (v : Word) (s : State) : (setB n v s).flagPins = s.flagPins := rfl
@[simp] theorem setB_code (n : Fin 16) (v : Word) (s : State) : (setB n v s).code = s.code := rfl
@[simp] theorem setB_mem (n : Fin 16) (v : Word) (s : State) : (setB n v s).mem = s.mem := rfl
@[simp] theorem setB_memMap (n : Fin 16) (v : Word) (s : State) : (setB n v s).memMap = s.memMap := rfl
@[simp] theorem setB_noBoot (n : Fin 16) (v : Word) (s : State) : (setB n v s).noBoot = s.noBoot := rfl
@[simp] theorem setB_env (n : Fin 16) (v : Word) (s : State) : (setB n v s).env = s.env := rfl
@[simp] theorem setB_mode1Act (n : Fin 16) (v : Word) (s : State) : (setB n v s).mode1Act = s.mode1Act := rfl
@[simp] theorem setB_mode1Wrote (n : Fin 16) (v : Word) (s : State) : (setB n v s).mode1Wrote = s.mode1Wrote := rfl
@[simp] theorem setB_irqWait (n : Fin 16) (v : Word) (s : State) : (setB n v s).irqWait = s.irqWait := rfl
@[simp] theorem setB_cycle (n : Fin 16) (v : Word) (s : State) : (setB n v s).cycle = s.cycle := rfl

/-! ### `setMr` -/

@[simp] theorem setMr_pc (v : MrWord) (s : State) : (setMr v s).pc = s.pc := rfl
@[simp] theorem setMr_dly (v : MrWord) (s : State) : (setMr v s).dly = s.dly := rfl
@[simp] theorem setMr_idle (v : MrWord) (s : State) : (setMr v s).idle = s.idle := rfl
@[simp] theorem setMr_regs (v : MrWord) (s : State) : (setMr v s).regs = s.regs := rfl
@[simp] theorem setMr_regsAlt (v : MrWord) (s : State) : (setMr v s).regsAlt = s.regsAlt := rfl
@[simp] theorem setMr_dag (v : MrWord) (s : State) : (setMr v s).dag = s.dag := rfl
@[simp] theorem setMr_dagAlt (v : MrWord) (s : State) : (setMr v s).dagAlt = s.dagAlt := rfl
@[simp] theorem setMr_pcStack (v : MrWord) (s : State) : (setMr v s).pcStack = s.pcStack := rfl
@[simp] theorem setMr_loopStack (v : MrWord) (s : State) : (setMr v s).loopStack = s.loopStack := rfl
@[simp] theorem setMr_statusStack (v : MrWord) (s : State) : (setMr v s).statusStack = s.statusStack := rfl
@[simp] theorem setMr_lcntr (v : MrWord) (s : State) : (setMr v s).lcntr = s.lcntr := rfl
@[simp] theorem setMr_laddr (v : MrWord) (s : State) : (setMr v s).laddr = s.laddr := rfl
@[simp] theorem setMr_astat (v : MrWord) (s : State) : (setMr v s).astat = s.astat := rfl
@[simp] theorem setMr_mode1 (v : MrWord) (s : State) : (setMr v s).mode1 = s.mode1 := rfl
@[simp] theorem setMr_mode2 (v : MrWord) (s : State) : (setMr v s).mode2 = s.mode2 := rfl
@[simp] theorem setMr_mmask (v : MrWord) (s : State) : (setMr v s).mmask = s.mmask := rfl
@[simp] theorem setMr_irptl (v : MrWord) (s : State) : (setMr v s).irptl = s.irptl := rfl
@[simp] theorem setMr_imask (v : MrWord) (s : State) : (setMr v s).imask = s.imask := rfl
@[simp] theorem setMr_lirptl (v : MrWord) (s : State) : (setMr v s).lirptl = s.lirptl := rfl
@[simp] theorem setMr_ustat1 (v : MrWord) (s : State) : (setMr v s).ustat1 = s.ustat1 := rfl
@[simp] theorem setMr_tcount (v : MrWord) (s : State) : (setMr v s).tcount = s.tcount := rfl
@[simp] theorem setMr_tperiod (v : MrWord) (s : State) : (setMr v s).tperiod = s.tperiod := rfl
@[simp] theorem setMr_ioflag (v : MrWord) (s : State) : (setMr v s).ioflag = s.ioflag := rfl
@[simp] theorem setMr_isrv (v : MrWord) (s : State) : (setMr v s).isrv = s.isrv := rfl
@[simp] theorem setMr_timexp (v : MrWord) (s : State) : (setMr v s).timexp = s.timexp := rfl
@[simp] theorem setMr_flagPins (v : MrWord) (s : State) : (setMr v s).flagPins = s.flagPins := rfl
@[simp] theorem setMr_code (v : MrWord) (s : State) : (setMr v s).code = s.code := rfl
@[simp] theorem setMr_mem (v : MrWord) (s : State) : (setMr v s).mem = s.mem := rfl
@[simp] theorem setMr_memMap (v : MrWord) (s : State) : (setMr v s).memMap = s.memMap := rfl
@[simp] theorem setMr_noBoot (v : MrWord) (s : State) : (setMr v s).noBoot = s.noBoot := rfl
@[simp] theorem setMr_env (v : MrWord) (s : State) : (setMr v s).env = s.env := rfl
@[simp] theorem setMr_mode1Act (v : MrWord) (s : State) : (setMr v s).mode1Act = s.mode1Act := rfl
@[simp] theorem setMr_mode1Wrote (v : MrWord) (s : State) : (setMr v s).mode1Wrote = s.mode1Wrote := rfl
@[simp] theorem setMr_irqWait (v : MrWord) (s : State) : (setMr v s).irqWait = s.irqWait := rfl
@[simp] theorem setMr_cycle (v : MrWord) (s : State) : (setMr v s).cycle = s.cycle := rfl

/-! ### `loadLaddr` -/

@[simp] theorem loadLaddr_pc (v : Word) (s : State) : (loadLaddr v s).pc = s.pc := rfl
@[simp] theorem loadLaddr_dly (v : Word) (s : State) : (loadLaddr v s).dly = s.dly := rfl
@[simp] theorem loadLaddr_idle (v : Word) (s : State) : (loadLaddr v s).idle = s.idle := rfl
@[simp] theorem loadLaddr_regs (v : Word) (s : State) : (loadLaddr v s).regs = s.regs := rfl
@[simp] theorem loadLaddr_regsAlt (v : Word) (s : State) : (loadLaddr v s).regsAlt = s.regsAlt := rfl
@[simp] theorem loadLaddr_dag (v : Word) (s : State) : (loadLaddr v s).dag = s.dag := rfl
@[simp] theorem loadLaddr_dagAlt (v : Word) (s : State) : (loadLaddr v s).dagAlt = s.dagAlt := rfl
@[simp] theorem loadLaddr_pcStack (v : Word) (s : State) : (loadLaddr v s).pcStack = s.pcStack := rfl
@[simp] theorem loadLaddr_loopStack (v : Word) (s : State) : (loadLaddr v s).loopStack = s.loopStack := rfl
@[simp] theorem loadLaddr_statusStack (v : Word) (s : State) : (loadLaddr v s).statusStack = s.statusStack := rfl
@[simp] theorem loadLaddr_lcntr (v : Word) (s : State) : (loadLaddr v s).lcntr = s.lcntr := rfl
@[simp] theorem loadLaddr_astat (v : Word) (s : State) : (loadLaddr v s).astat = s.astat := rfl
@[simp] theorem loadLaddr_mode1 (v : Word) (s : State) : (loadLaddr v s).mode1 = s.mode1 := rfl
@[simp] theorem loadLaddr_mode2 (v : Word) (s : State) : (loadLaddr v s).mode2 = s.mode2 := rfl
@[simp] theorem loadLaddr_mmask (v : Word) (s : State) : (loadLaddr v s).mmask = s.mmask := rfl
@[simp] theorem loadLaddr_irptl (v : Word) (s : State) : (loadLaddr v s).irptl = s.irptl := rfl
@[simp] theorem loadLaddr_imask (v : Word) (s : State) : (loadLaddr v s).imask = s.imask := rfl
@[simp] theorem loadLaddr_lirptl (v : Word) (s : State) : (loadLaddr v s).lirptl = s.lirptl := rfl
@[simp] theorem loadLaddr_ustat1 (v : Word) (s : State) : (loadLaddr v s).ustat1 = s.ustat1 := rfl
@[simp] theorem loadLaddr_tcount (v : Word) (s : State) : (loadLaddr v s).tcount = s.tcount := rfl
@[simp] theorem loadLaddr_tperiod (v : Word) (s : State) : (loadLaddr v s).tperiod = s.tperiod := rfl
@[simp] theorem loadLaddr_ioflag (v : Word) (s : State) : (loadLaddr v s).ioflag = s.ioflag := rfl
@[simp] theorem loadLaddr_isrv (v : Word) (s : State) : (loadLaddr v s).isrv = s.isrv := rfl
@[simp] theorem loadLaddr_timexp (v : Word) (s : State) : (loadLaddr v s).timexp = s.timexp := rfl
@[simp] theorem loadLaddr_flagPins (v : Word) (s : State) : (loadLaddr v s).flagPins = s.flagPins := rfl
@[simp] theorem loadLaddr_code (v : Word) (s : State) : (loadLaddr v s).code = s.code := rfl
@[simp] theorem loadLaddr_mem (v : Word) (s : State) : (loadLaddr v s).mem = s.mem := rfl
@[simp] theorem loadLaddr_memMap (v : Word) (s : State) : (loadLaddr v s).memMap = s.memMap := rfl
@[simp] theorem loadLaddr_noBoot (v : Word) (s : State) : (loadLaddr v s).noBoot = s.noBoot := rfl
@[simp] theorem loadLaddr_env (v : Word) (s : State) : (loadLaddr v s).env = s.env := rfl
@[simp] theorem loadLaddr_mode1Act (v : Word) (s : State) : (loadLaddr v s).mode1Act = s.mode1Act := rfl
@[simp] theorem loadLaddr_mode1Wrote (v : Word) (s : State) : (loadLaddr v s).mode1Wrote = s.mode1Wrote := rfl
@[simp] theorem loadLaddr_irqWait (v : Word) (s : State) : (loadLaddr v s).irqWait = s.irqWait := rfl
@[simp] theorem loadLaddr_cycle (v : Word) (s : State) : (loadLaddr v s).cycle = s.cycle := rfl
@[simp] theorem loadLaddr_mr (v : Word) (s : State) : (loadLaddr v s).mr = s.mr := rfl
@[simp] theorem loadLaddr_mrAlt (v : Word) (s : State) : (loadLaddr v s).mrAlt = s.mrAlt := rfl
@[simp] theorem loadLaddr_laddr (v : Word) (s : State) :
    (loadLaddr v s).laddr = if v = s.laddrRead then s.laddr else v := rfl

/-! ### `writeMode1` -/

@[simp] theorem writeMode1_pc (v : Word) (s : State) : (writeMode1 v s).pc = s.pc := rfl
@[simp] theorem writeMode1_dly (v : Word) (s : State) : (writeMode1 v s).dly = s.dly := rfl
@[simp] theorem writeMode1_idle (v : Word) (s : State) : (writeMode1 v s).idle = s.idle := rfl
@[simp] theorem writeMode1_regs (v : Word) (s : State) : (writeMode1 v s).regs = s.regs := rfl
@[simp] theorem writeMode1_regsAlt (v : Word) (s : State) : (writeMode1 v s).regsAlt = s.regsAlt := rfl
@[simp] theorem writeMode1_dag (v : Word) (s : State) : (writeMode1 v s).dag = s.dag := rfl
@[simp] theorem writeMode1_dagAlt (v : Word) (s : State) : (writeMode1 v s).dagAlt = s.dagAlt := rfl
@[simp] theorem writeMode1_mr (v : Word) (s : State) : (writeMode1 v s).mr = s.mr := rfl
@[simp] theorem writeMode1_mrAlt (v : Word) (s : State) : (writeMode1 v s).mrAlt = s.mrAlt := rfl
@[simp] theorem writeMode1_pcStack (v : Word) (s : State) : (writeMode1 v s).pcStack = s.pcStack := rfl
@[simp] theorem writeMode1_loopStack (v : Word) (s : State) : (writeMode1 v s).loopStack = s.loopStack := rfl
@[simp] theorem writeMode1_statusStack (v : Word) (s : State) : (writeMode1 v s).statusStack = s.statusStack := rfl
@[simp] theorem writeMode1_lcntr (v : Word) (s : State) : (writeMode1 v s).lcntr = s.lcntr := rfl
@[simp] theorem writeMode1_laddr (v : Word) (s : State) : (writeMode1 v s).laddr = s.laddr := rfl
@[simp] theorem writeMode1_astat (v : Word) (s : State) : (writeMode1 v s).astat = s.astat := rfl
@[simp] theorem writeMode1_mode2 (v : Word) (s : State) : (writeMode1 v s).mode2 = s.mode2 := rfl
@[simp] theorem writeMode1_mmask (v : Word) (s : State) : (writeMode1 v s).mmask = s.mmask := rfl
@[simp] theorem writeMode1_irptl (v : Word) (s : State) : (writeMode1 v s).irptl = s.irptl := rfl
@[simp] theorem writeMode1_imask (v : Word) (s : State) : (writeMode1 v s).imask = s.imask := rfl
@[simp] theorem writeMode1_lirptl (v : Word) (s : State) : (writeMode1 v s).lirptl = s.lirptl := rfl
@[simp] theorem writeMode1_ustat1 (v : Word) (s : State) : (writeMode1 v s).ustat1 = s.ustat1 := rfl
@[simp] theorem writeMode1_tcount (v : Word) (s : State) : (writeMode1 v s).tcount = s.tcount := rfl
@[simp] theorem writeMode1_tperiod (v : Word) (s : State) : (writeMode1 v s).tperiod = s.tperiod := rfl
@[simp] theorem writeMode1_ioflag (v : Word) (s : State) : (writeMode1 v s).ioflag = s.ioflag := rfl
@[simp] theorem writeMode1_isrv (v : Word) (s : State) : (writeMode1 v s).isrv = s.isrv := rfl
@[simp] theorem writeMode1_timexp (v : Word) (s : State) : (writeMode1 v s).timexp = s.timexp := rfl
@[simp] theorem writeMode1_flagPins (v : Word) (s : State) : (writeMode1 v s).flagPins = s.flagPins := rfl
@[simp] theorem writeMode1_code (v : Word) (s : State) : (writeMode1 v s).code = s.code := rfl
@[simp] theorem writeMode1_mem (v : Word) (s : State) : (writeMode1 v s).mem = s.mem := rfl
@[simp] theorem writeMode1_memMap (v : Word) (s : State) : (writeMode1 v s).memMap = s.memMap := rfl
@[simp] theorem writeMode1_noBoot (v : Word) (s : State) : (writeMode1 v s).noBoot = s.noBoot := rfl
@[simp] theorem writeMode1_env (v : Word) (s : State) : (writeMode1 v s).env = s.env := rfl
@[simp] theorem writeMode1_mode1Act (v : Word) (s : State) : (writeMode1 v s).mode1Act = s.mode1Act := rfl
@[simp] theorem writeMode1_irqWait (v : Word) (s : State) : (writeMode1 v s).irqWait = s.irqWait := rfl
@[simp] theorem writeMode1_cycle (v : Word) (s : State) : (writeMode1 v s).cycle = s.cycle := rfl

/-! ### `latchWrap` -/

@[simp] theorem latchWrap_pc (n : Fin 16) (s : State) : (latchWrap n s).pc = s.pc := rfl
@[simp] theorem latchWrap_dly (n : Fin 16) (s : State) : (latchWrap n s).dly = s.dly := rfl
@[simp] theorem latchWrap_idle (n : Fin 16) (s : State) : (latchWrap n s).idle = s.idle := rfl
@[simp] theorem latchWrap_regs (n : Fin 16) (s : State) : (latchWrap n s).regs = s.regs := rfl
@[simp] theorem latchWrap_regsAlt (n : Fin 16) (s : State) : (latchWrap n s).regsAlt = s.regsAlt := rfl
@[simp] theorem latchWrap_dag (n : Fin 16) (s : State) : (latchWrap n s).dag = s.dag := rfl
@[simp] theorem latchWrap_dagAlt (n : Fin 16) (s : State) : (latchWrap n s).dagAlt = s.dagAlt := rfl
@[simp] theorem latchWrap_mr (n : Fin 16) (s : State) : (latchWrap n s).mr = s.mr := rfl
@[simp] theorem latchWrap_mrAlt (n : Fin 16) (s : State) : (latchWrap n s).mrAlt = s.mrAlt := rfl
@[simp] theorem latchWrap_pcStack (n : Fin 16) (s : State) : (latchWrap n s).pcStack = s.pcStack := rfl
@[simp] theorem latchWrap_loopStack (n : Fin 16) (s : State) : (latchWrap n s).loopStack = s.loopStack := rfl
@[simp] theorem latchWrap_statusStack (n : Fin 16) (s : State) : (latchWrap n s).statusStack = s.statusStack := rfl
@[simp] theorem latchWrap_lcntr (n : Fin 16) (s : State) : (latchWrap n s).lcntr = s.lcntr := rfl
@[simp] theorem latchWrap_laddr (n : Fin 16) (s : State) : (latchWrap n s).laddr = s.laddr := rfl
@[simp] theorem latchWrap_astat (n : Fin 16) (s : State) : (latchWrap n s).astat = s.astat := rfl
@[simp] theorem latchWrap_mode1 (n : Fin 16) (s : State) : (latchWrap n s).mode1 = s.mode1 := rfl
@[simp] theorem latchWrap_mode2 (n : Fin 16) (s : State) : (latchWrap n s).mode2 = s.mode2 := rfl
@[simp] theorem latchWrap_mmask (n : Fin 16) (s : State) : (latchWrap n s).mmask = s.mmask := rfl
@[simp] theorem latchWrap_imask (n : Fin 16) (s : State) : (latchWrap n s).imask = s.imask := rfl
@[simp] theorem latchWrap_lirptl (n : Fin 16) (s : State) : (latchWrap n s).lirptl = s.lirptl := rfl
@[simp] theorem latchWrap_ustat1 (n : Fin 16) (s : State) : (latchWrap n s).ustat1 = s.ustat1 := rfl
@[simp] theorem latchWrap_tcount (n : Fin 16) (s : State) : (latchWrap n s).tcount = s.tcount := rfl
@[simp] theorem latchWrap_tperiod (n : Fin 16) (s : State) : (latchWrap n s).tperiod = s.tperiod := rfl
@[simp] theorem latchWrap_ioflag (n : Fin 16) (s : State) : (latchWrap n s).ioflag = s.ioflag := rfl
@[simp] theorem latchWrap_isrv (n : Fin 16) (s : State) : (latchWrap n s).isrv = s.isrv := rfl
@[simp] theorem latchWrap_timexp (n : Fin 16) (s : State) : (latchWrap n s).timexp = s.timexp := rfl
@[simp] theorem latchWrap_flagPins (n : Fin 16) (s : State) : (latchWrap n s).flagPins = s.flagPins := rfl
@[simp] theorem latchWrap_code (n : Fin 16) (s : State) : (latchWrap n s).code = s.code := rfl
@[simp] theorem latchWrap_mem (n : Fin 16) (s : State) : (latchWrap n s).mem = s.mem := rfl
@[simp] theorem latchWrap_memMap (n : Fin 16) (s : State) : (latchWrap n s).memMap = s.memMap := rfl
@[simp] theorem latchWrap_noBoot (n : Fin 16) (s : State) : (latchWrap n s).noBoot = s.noBoot := rfl
@[simp] theorem latchWrap_env (n : Fin 16) (s : State) : (latchWrap n s).env = s.env := rfl
@[simp] theorem latchWrap_mode1Act (n : Fin 16) (s : State) : (latchWrap n s).mode1Act = s.mode1Act := rfl
@[simp] theorem latchWrap_mode1Wrote (n : Fin 16) (s : State) : (latchWrap n s).mode1Wrote = s.mode1Wrote := rfl
@[simp] theorem latchWrap_irqWait (n : Fin 16) (s : State) : (latchWrap n s).irqWait = s.irqWait := rfl
@[simp] theorem latchWrap_cycle (n : Fin 16) (s : State) : (latchWrap n s).cycle = s.cycle := rfl

/-! ### `applyCompute` -/

@[simp] theorem applyCompute_pc (k : Config.Slot) (c : Compute) (a : Config.ComputeInput) (s : State) :
    (applyCompute k c a s).pc = s.pc := match c with
  | .none | .quiet _ | .single _ _ | .double _ _ _ | .multi _ _ => rfl
@[simp] theorem applyCompute_dly (k : Config.Slot) (c : Compute) (a : Config.ComputeInput) (s : State) :
    (applyCompute k c a s).dly = s.dly := match c with
  | .none | .quiet _ | .single _ _ | .double _ _ _ | .multi _ _ => rfl
@[simp] theorem applyCompute_idle (k : Config.Slot) (c : Compute) (a : Config.ComputeInput) (s : State) :
    (applyCompute k c a s).idle = s.idle := match c with
  | .none | .quiet _ | .single _ _ | .double _ _ _ | .multi _ _ => rfl
@[simp] theorem applyCompute_dag (k : Config.Slot) (c : Compute) (a : Config.ComputeInput) (s : State) :
    (applyCompute k c a s).dag = s.dag := match c with
  | .none | .quiet _ | .single _ _ | .double _ _ _ | .multi _ _ => rfl
@[simp] theorem applyCompute_dagAlt (k : Config.Slot) (c : Compute) (a : Config.ComputeInput) (s : State) :
    (applyCompute k c a s).dagAlt = s.dagAlt := match c with
  | .none | .quiet _ | .single _ _ | .double _ _ _ | .multi _ _ => rfl
@[simp] theorem applyCompute_pcStack (k : Config.Slot) (c : Compute) (a : Config.ComputeInput) (s : State) :
    (applyCompute k c a s).pcStack = s.pcStack := match c with
  | .none | .quiet _ | .single _ _ | .double _ _ _ | .multi _ _ => rfl
@[simp] theorem applyCompute_loopStack (k : Config.Slot) (c : Compute) (a : Config.ComputeInput) (s : State) :
    (applyCompute k c a s).loopStack = s.loopStack := match c with
  | .none | .quiet _ | .single _ _ | .double _ _ _ | .multi _ _ => rfl
@[simp] theorem applyCompute_statusStack (k : Config.Slot) (c : Compute) (a : Config.ComputeInput) (s : State) :
    (applyCompute k c a s).statusStack = s.statusStack := match c with
  | .none | .quiet _ | .single _ _ | .double _ _ _ | .multi _ _ => rfl
@[simp] theorem applyCompute_lcntr (k : Config.Slot) (c : Compute) (a : Config.ComputeInput) (s : State) :
    (applyCompute k c a s).lcntr = s.lcntr := match c with
  | .none | .quiet _ | .single _ _ | .double _ _ _ | .multi _ _ => rfl
@[simp] theorem applyCompute_laddr (k : Config.Slot) (c : Compute) (a : Config.ComputeInput) (s : State) :
    (applyCompute k c a s).laddr = s.laddr := match c with
  | .none | .quiet _ | .single _ _ | .double _ _ _ | .multi _ _ => rfl
@[simp] theorem applyCompute_mode1 (k : Config.Slot) (c : Compute) (a : Config.ComputeInput) (s : State) :
    (applyCompute k c a s).mode1 = s.mode1 := match c with
  | .none | .quiet _ | .single _ _ | .double _ _ _ | .multi _ _ => rfl
@[simp] theorem applyCompute_mode2 (k : Config.Slot) (c : Compute) (a : Config.ComputeInput) (s : State) :
    (applyCompute k c a s).mode2 = s.mode2 := match c with
  | .none | .quiet _ | .single _ _ | .double _ _ _ | .multi _ _ => rfl
@[simp] theorem applyCompute_mmask (k : Config.Slot) (c : Compute) (a : Config.ComputeInput) (s : State) :
    (applyCompute k c a s).mmask = s.mmask := match c with
  | .none | .quiet _ | .single _ _ | .double _ _ _ | .multi _ _ => rfl
@[simp] theorem applyCompute_imask (k : Config.Slot) (c : Compute) (a : Config.ComputeInput) (s : State) :
    (applyCompute k c a s).imask = s.imask := match c with
  | .none | .quiet _ | .single _ _ | .double _ _ _ | .multi _ _ => rfl
@[simp] theorem applyCompute_lirptl (k : Config.Slot) (c : Compute) (a : Config.ComputeInput) (s : State) :
    (applyCompute k c a s).lirptl = s.lirptl := match c with
  | .none | .quiet _ | .single _ _ | .double _ _ _ | .multi _ _ => rfl
@[simp] theorem applyCompute_ustat1 (k : Config.Slot) (c : Compute) (a : Config.ComputeInput) (s : State) :
    (applyCompute k c a s).ustat1 = s.ustat1 := match c with
  | .none | .quiet _ | .single _ _ | .double _ _ _ | .multi _ _ => rfl
@[simp] theorem applyCompute_tcount (k : Config.Slot) (c : Compute) (a : Config.ComputeInput) (s : State) :
    (applyCompute k c a s).tcount = s.tcount := match c with
  | .none | .quiet _ | .single _ _ | .double _ _ _ | .multi _ _ => rfl
@[simp] theorem applyCompute_tperiod (k : Config.Slot) (c : Compute) (a : Config.ComputeInput) (s : State) :
    (applyCompute k c a s).tperiod = s.tperiod := match c with
  | .none | .quiet _ | .single _ _ | .double _ _ _ | .multi _ _ => rfl
@[simp] theorem applyCompute_ioflag (k : Config.Slot) (c : Compute) (a : Config.ComputeInput) (s : State) :
    (applyCompute k c a s).ioflag = s.ioflag := match c with
  | .none | .quiet _ | .single _ _ | .double _ _ _ | .multi _ _ => rfl
@[simp] theorem applyCompute_isrv (k : Config.Slot) (c : Compute) (a : Config.ComputeInput) (s : State) :
    (applyCompute k c a s).isrv = s.isrv := match c with
  | .none | .quiet _ | .single _ _ | .double _ _ _ | .multi _ _ => rfl
@[simp] theorem applyCompute_timexp (k : Config.Slot) (c : Compute) (a : Config.ComputeInput) (s : State) :
    (applyCompute k c a s).timexp = s.timexp := match c with
  | .none | .quiet _ | .single _ _ | .double _ _ _ | .multi _ _ => rfl
@[simp] theorem applyCompute_flagPins (k : Config.Slot) (c : Compute) (a : Config.ComputeInput) (s : State) :
    (applyCompute k c a s).flagPins = s.flagPins := match c with
  | .none | .quiet _ | .single _ _ | .double _ _ _ | .multi _ _ => rfl
@[simp] theorem applyCompute_code (k : Config.Slot) (c : Compute) (a : Config.ComputeInput) (s : State) :
    (applyCompute k c a s).code = s.code := match c with
  | .none | .quiet _ | .single _ _ | .double _ _ _ | .multi _ _ => rfl
@[simp] theorem applyCompute_mem (k : Config.Slot) (c : Compute) (a : Config.ComputeInput) (s : State) :
    (applyCompute k c a s).mem = s.mem := match c with
  | .none | .quiet _ | .single _ _ | .double _ _ _ | .multi _ _ => rfl
@[simp] theorem applyCompute_memMap (k : Config.Slot) (c : Compute) (a : Config.ComputeInput) (s : State) :
    (applyCompute k c a s).memMap = s.memMap := match c with
  | .none | .quiet _ | .single _ _ | .double _ _ _ | .multi _ _ => rfl
@[simp] theorem applyCompute_noBoot (k : Config.Slot) (c : Compute) (a : Config.ComputeInput) (s : State) :
    (applyCompute k c a s).noBoot = s.noBoot := match c with
  | .none | .quiet _ | .single _ _ | .double _ _ _ | .multi _ _ => rfl
@[simp] theorem applyCompute_env (k : Config.Slot) (c : Compute) (a : Config.ComputeInput) (s : State) :
    (applyCompute k c a s).env = s.env := match c with
  | .none | .quiet _ | .single _ _ | .double _ _ _ | .multi _ _ => rfl
@[simp] theorem applyCompute_mode1Act (k : Config.Slot) (c : Compute) (a : Config.ComputeInput) (s : State) :
    (applyCompute k c a s).mode1Act = s.mode1Act := match c with
  | .none | .quiet _ | .single _ _ | .double _ _ _ | .multi _ _ => rfl
@[simp] theorem applyCompute_mode1Wrote (k : Config.Slot) (c : Compute) (a : Config.ComputeInput) (s : State) :
    (applyCompute k c a s).mode1Wrote = s.mode1Wrote := match c with
  | .none | .quiet _ | .single _ _ | .double _ _ _ | .multi _ _ => rfl
@[simp] theorem applyCompute_irqWait (k : Config.Slot) (c : Compute) (a : Config.ComputeInput) (s : State) :
    (applyCompute k c a s).irqWait = s.irqWait := match c with
  | .none | .quiet _ | .single _ _ | .double _ _ _ | .multi _ _ => rfl
@[simp] theorem applyCompute_cycle (k : Config.Slot) (c : Compute) (a : Config.ComputeInput) (s : State) :
    (applyCompute k c a s).cycle = s.cycle := match c with
  | .none | .quiet _ | .single _ _ | .double _ _ _ | .multi _ _ => rfl

end Sys2Proof.Machine
end

