-- ==== Sys2Proof/Laws/Terms.lean ====
section
/-! SUPPORT. The terms of the statements (Sys2Proof/Safety.lean), written there from the spec's tables, and the machine's own
definitions say the same. -/

namespace Sys2Proof.Safety
open Sys2Proof.Machine

/-! ### Modes -/

/-- A word has none of three bits exactly where its mask by the three is 0. -/
theorem and_mask_eq_zero_iff (x : Word) :
    x &&& 0x00E00000 = 0 ↔ (x.getLsbD 21 || x.getLsbD 22 || x.getLsbD 23) = false := by
  have hm : ∀ k, k < 32 → (0x00E00000 : Word).getLsbD k = (decide (k = 21) || decide (k = 22) || decide (k = 23)) := by decide
  constructor
  · intro h
    have hb : ∀ k, k < 32 → (0x00E00000 : Word).getLsbD k = true → x.getLsbD k = false := by
      intro k _ ht
      have := congrArg (·.getLsbD k) h
      rw [BitVec.getLsbD_and, ht, Bool.and_true] at this
      exact this.trans BitVec.getLsbD_zero
    rw [hb 21 (by decide) rfl, hb 22 (by decide) rfl, hb 23 (by decide) rfl]
    rfl
  · intro h
    simp only [Bool.or_eq_false_iff] at h
    apply BitVec.eq_of_getLsbD_eq
    intro k hk
    refine Eq.trans ?_ BitVec.getLsbD_zero.symm
    rw [BitVec.getLsbD_and, hm k hk]
    by_cases h1 : k = 21
    · rw [h1, h.1.1]; rfl
    · by_cases h2 : k = 22
      · rw [h2, h.1.2]; rfl
      · by_cases h3 : k = 23
        · rw [h3, h.2]; rfl
        · simp [h1, h2, h3]

theorem sisd_iff (s : State) : Sisd s ↔ s.simd = false := and_mask_eq_zero_iff s.mode1Act

theorem circular_eq (s : State) (n : Fin 16) : s.circular n = circularOn s n := rfl

/-! ### Register copies -/

theorem altData_eq (s : State) (n : DReg) : altData s n = s.dregSelAlt n := by
  unfold altData State.dregSelAlt
  split <;> rfl

theorem altDag_eq (s : State) (n : Fin 16) : altDag s n = s.dagSelAlt n := by
  unfold altDag State.dagSelAlt
  repeat' split
  all_goals rfl

theorem altMr_eq (s : State) : altMr s = s.srcu := rfl

theorem getR_eq (s : State) (n : DReg) : s.getR n = dataRead s n := by
  rw [State.getR, dataRead, altData_eq]

theorem computeInput_eq (s : State) : s.computeInput = operandsRead s := by
  have h : s.getR = dataRead s := funext (getR_eq s)
  rw [State.computeInput, operandsRead, h]
  rfl

theorem setR_eq (n : DReg) (v : Word) (s : State) : setR n v s = dataWritten n v s := by
  unfold setR dataWritten
  rw [altData_eq]
  cases s.dregSelAlt n <;> rfl

theorem dagOf_eq (s : State) (n : Fin 16) : s.dagOf n = dagRead s n := by
  rw [State.dagOf, dagRead, altDag_eq]

theorem setDag_eq (n : Fin 16) (d : DagRegs) (s : State) : setDag n d s = dagReplaced n d s := by
  unfold setDag dagReplaced
  rw [altDag_eq]
  cases s.dagSelAlt n <;> rfl

theorem setI_eq (n : Fin 16) (v : Word) (s : State) : setI n v s = uregWritten (.i n) v s := by
  rw [setI, setDag_eq, dagOf_eq]; rfl

theorem setM_eq (n : Fin 16) (v : Word) (s : State) : setM n v s = uregWritten (.m n) v s := by
  rw [setM, setDag_eq, dagOf_eq]; rfl

theorem setL_eq (n : Fin 16) (v : Word) (s : State) : setL n v s = uregWritten (.l n) v s := by
  rw [setL, setDag_eq, dagOf_eq]; rfl

theorem setB_eq (n : Fin 16) (v : Word) (s : State) : setB n v s = uregWritten (.b n) v s := by
  rw [setB, setDag_eq, dagOf_eq]; rfl

/-! ### Register reads -/

/-- A latch of LIRPTL is unmasked exactly where its four summary bits are not all 0. -/
theorem summary_eq_zero (x : Word) :
    ((x &&& (x >>> 16)) &&& 0x0000000F = 0) ↔ ∀ k, k < 4 → (x.getLsbD k && x.getLsbD (16 + k)) = false := by
  have hm : ∀ k, k < 32 → (0x0000000F : Word).getLsbD k = decide (k < 4) := by decide
  constructor
  · intro h k hk
    have hb := congrArg (·.getLsbD k) h
    simp only [BitVec.getLsbD_and, BitVec.getLsbD_ushiftRight, hm k (by omega), hk, decide_true, Bool.and_true] at hb
    exact hb.trans (BitVec.getLsbD_zero)
  · intro h
    apply BitVec.eq_of_getLsbD_eq
    intro k hk
    simp only [BitVec.getLsbD_and, BitVec.getLsbD_ushiftRight, hm k hk]
    by_cases h4 : k < 4
    · rw [h k h4]; exact BitVec.getLsbD_zero.symm
    · simp [h4]

theorem linkPending_eq (s : State) :
    linkPending s = decide ((s.lirptl &&& (s.lirptl >>> 16)) &&& 0x0000000F ≠ 0) := by
  rw [Bool.eq_iff_iff, decide_eq_true_eq, ne_eq, summary_eq_zero]
  simp only [linkPending, Bool.or_eq_true]
  constructor
  · rintro (((h | h) | h) | h) hc
    · exact Bool.noConfusion (h.symm.trans (hc 0 (by decide)))
    · exact Bool.noConfusion (h.symm.trans (hc 1 (by decide)))
    · exact Bool.noConfusion (h.symm.trans (hc 2 (by decide)))
    · exact Bool.noConfusion (h.symm.trans (hc 3 (by decide)))
  · intro h
    by_contra hc
    simp only [not_or, Bool.not_eq_true] at hc
    obtain ⟨⟨⟨h0, h1⟩, h2⟩, h3⟩ := hc
    refine h fun k hk => ?_
    match k, hk with
    | 0, _ => exact h0
    | 1, _ => exact h1
    | 2, _ => exact h2
    | 3, _ => exact h3

theorem irptlRead_eq (s : State) : s.irptlRead = uregRead s .irptl := by
  rw [State.irptlRead, uregRead, linkPending_eq]
  have hb : ~~~bitMask 14 = 0xFFFFBFFF := by decide
  rw [hb]
  by_cases h : (s.lirptl &&& (s.lirptl >>> 16)) &&& 0x0000000F = 0
  · rw [if_pos h, if_neg (by simp only [ne_eq, h, not_true_eq_false, decide_false, Bool.false_eq_true, not_false_eq_true])]
  · rw [if_neg h, if_pos (by simp only [ne_eq, h, not_false_eq_true, decide_true])]
    rfl

theorem maskPointerBits_eq (s : State) :
    s.maskPointerBits = if s.isrv = [] then 0 else Config.maskPointers s.cycle := by
  unfold State.maskPointerBits
  cases s.isrv <;> rfl

theorem lirptlRead_eq (s : State) : s.lirptlRead = uregRead s .lirptl := by
  rw [State.lirptlRead, uregRead, maskPointerBits_eq]

/-- Every readable universal register reads as its rule says. -/
theorem readUreg_eq {u : UReg} (h : u.readable = true) (s : State) : s.readUreg u = .next (uregRead s u) := by
  cases u
  case r n => exact congrArg Host.Outcome.next (getR_eq s n)
  case i n => exact congrArg (fun d : DagRegs => Host.Outcome.next d.i[n]) (dagOf_eq s n)
  case m n => exact congrArg (fun d : DagRegs => Host.Outcome.next d.m[n]) (dagOf_eq s n)
  case l n => exact congrArg (fun d : DagRegs => Host.Outcome.next d.l[n]) (dagOf_eq s n)
  case b n => exact congrArg (fun d : DagRegs => Host.Outcome.next d.b[n]) (dagOf_eq s n)
  case irptl => exact congrArg Host.Outcome.next (irptlRead_eq s)
  case lirptl => exact congrArg Host.Outcome.next (lirptlRead_eq s)
  all_goals first | rfl | cases h

/-- Every admitted system register reads as the universal register of its name. -/
theorem readSreg_eq {r : SReg} (h : r.admitted = true) (s : State) : s.readSreg r = .next (uregRead s (sregAsUreg r)) := by
  cases r
  case irptl => exact congrArg Host.Outcome.next (irptlRead_eq s)
  case lirptl => exact congrArg Host.Outcome.next (lirptlRead_eq s)
  all_goals first | rfl | cases h

/-! ### Conditions and clauses -/

theorem truth_eq (s : State) (c : CondCode) : truth s c = s.cond c := by
  have hn : ∀ (l : List LoopEntry), (match l.head? with
      | some ⟨_, .lce, count⟩ => count != 0
      | _ => Config.condEval .notLce s.astat s.mode1Act) =
      match l with
      | e :: _ => if e.term = .lce then decide (e.count ≠ 0) else Config.condEval .notLce s.astat s.mode1Act
      | [] => Config.condEval .notLce s.astat s.mode1Act := by
    intro l
    match l with
    | [] => rfl
    | ⟨_, term, count⟩ :: _ => cases term <;> simp [bne, BEq.beq]
  cases c
  case lce => exact congrArg (!·) (hn s.loopStack)
  case notLce => exact hn s.loopStack
  all_goals rfl

theorem clausePart_eq (clause : Clause) (taken : Bool) : clausePart clause taken = clauseOperation clause taken := by
  cases clause <;> cases taken <;> rfl

/-! ### Interrupts -/

theorem offset_eq (n : Interrupt) : (vectorRow n).offset = n.offset := by cases n <;> rfl

theorem isLatched_eq (s : State) (n : Interrupt) : isLatched s n = s.latched n := by cases n <;> rfl

theorem isEnabled_eq (s : State) (n : Interrupt) : isEnabled s n = s.enabled n := by cases n <;> rfl

theorem and_ones (x : Word) : x &&& 0xFFFFFFFF = x := BitVec.and_allOnes

theorem latchCleared_eq (n : Interrupt) (s : State) : latchCleared n s = unlatch n s := by
  cases n <;> simp [latchCleared, vectorRow, unlatch, Interrupt.irptlBit, Interrupt.lirptlBit, Interrupt.place, bitMask] <;>
    exact (and_ones _).symm

/-- What a source outside the core latches. -/
theorem latch_source (src : EnvSource) (s : State) :
    latch src.interrupt s =
      { s with irptl := s.irptl ||| sourceIrptl src, lirptl := s.lirptl ||| sourceLirptl src } := by
  cases src <;> rfl

theorem loopTarget_eq (s : State) (t : Target) : s.loopTarget t = loopEndOf s t := by
  cases t with
  | absolute a => rfl
  | relative off => simp [State.loopTarget, relTarget, loopEndOf]

end Sys2Proof.Safety
end

