-- ==== Sys2Proof/Laws/Effects.lean ====
section
/-! SUPPORT. What the shared operations can do: for each, its value where it succeeds and the shape of its next state where it
answers one. -/

namespace Sys2Proof.Machine
open Sys2Proof.Safety

/-! ### Sequencing -/

@[simp] theorem andThen_next {α β : Type} (a : α) (f : α → Host.Outcome β Fault Refusal) : andThen (.next a) f = f a := rfl

@[simp] theorem andThen_fault {α β : Type} (r : Fault) (f : α → Host.Outcome β Fault Refusal) :
    andThen (.fault r) f = .fault r := rfl

@[simp] theorem andThen_refused {α β : Type} (r : Refusal) (f : α → Host.Outcome β Fault Refusal) :
    andThen (.refused r) f = .refused r := rfl

theorem andThen_eq_next {α β : Type} {x : Host.Outcome α Fault Refusal} {f : α → Host.Outcome β Fault Refusal} {b : β} :
    andThen x f = .next b ↔ ∃ a, x = .next a ∧ f a = .next b := by
  cases x <;> simp

theorem andThen_assoc {α β γ : Type} (x : Host.Outcome α Fault Refusal) (f : α → Host.Outcome β Fault Refusal)
    (g : β → Host.Outcome γ Fault Refusal) : andThen (andThen x f) g = andThen x fun a => andThen (f a) g := by
  cases x <;> rfl

@[simp] theorem whenCond_true {c : CondCode} {s : State} (h : s.cond c = true) (x : Result) : whenCond c s x = x := by
  simp [whenCond, h]

@[simp] theorem whenCond_false {c : CondCode} {s : State} (h : s.cond c = false) (x : Result) :
    whenCond c s x = .next s := by
  simp [whenCond, h]

/-! ### Beginning and end of an instruction -/

/-- Two states stand at the same place: `pc`, delayed branch, loop and PC stack are the same. -/
structure SamePlace (s t : State) : Prop where
  pc : t.pc = s.pc
  dly : t.dly = s.dly
  loopStack : t.loopStack = s.loopStack
  pcStack : t.pcStack = s.pcStack

theorem SamePlace.atLoopEnd {s t : State} (h : SamePlace s t) : t.atLoopEnd = s.atLoopEnd := by
  simp [State.atLoopEnd, h.loopStack, h.pc]

theorem SamePlace.inLoopTail {s t : State} (h : SamePlace s t) : t.inLoopTail = s.inLoopTail := by
  simp [State.inLoopTail, h.loopStack, h.pc]

theorem SamePlace.atSomeLoopEnd {s t : State} (h : SamePlace s t) : t.atSomeLoopEnd = s.atSomeLoopEnd := by
  simp [State.atSomeLoopEnd, h.loopStack, h.pc]

theorem SamePlace.canEnd {s t : State} (h : SamePlace s t) (hs : CanEnd s) : CanEnd t := by
  obtain ⟨h1, h2⟩ := hs
  exact ⟨fun he => h.dly ▸ h1 (by simpa [EndsLoop, h.loopStack, h.pc] using he),
    fun e he hp => h.pcStack ▸ h2 e (h.loopStack ▸ he) (h.pc ▸ hp)⟩

theorem atSomeLoopEnd_iff {s : State} : s.atSomeLoopEnd = true ↔ EndsLoop s := by
  simp [State.atSomeLoopEnd, EndsLoop]

theorem inLoopTail_iff {s : State} : s.inLoopTail = true ↔ InTail s := by
  simp [State.inLoopTail, InTail]

theorem atLoopEnd_iff {s : State} : s.atLoopEnd = true ↔ ∃ e ∈ s.loopStack.head?, s.pc = e.endAddr := by
  unfold State.atLoopEnd
  cases s.loopStack <;> simp

theorem atLoopEnd_iff_endsInnermost {s : State} : s.atLoopEnd = true ↔ EndsInnermost s := by
  unfold State.atLoopEnd EndsInnermost
  cases s.loopStack <;> simp [eq_comm]

theorem terminated_eq (s : State) (c : CondCode) : s.terminated c = passIsLast s c := by
  cases c <;> rfl

/-- The end of the innermost loop is the end of an active loop. -/
theorem endsLoop_of_atLoopEnd {s : State} (h : s.atLoopEnd = true) : EndsLoop s := by
  obtain ⟨e, he, hp⟩ := atLoopEnd_iff.1 h
  exact ⟨e, List.mem_of_mem_head? he, hp⟩

/-- The last instruction of a loop stands in its last three addresses. -/
theorem inTail_of_endsLoop {s : State} (h : EndsLoop s) : InTail s := by
  obtain ⟨e, he, hp⟩ := h
  exact ⟨e, he, by rw [hp]; omega, by rw [hp]⟩

/-- Where an instruction may stand, it is its effects and then its end. -/
theorem run_eq {k : FlowKind} {s : State} (h1 : Sisd s) (h2 : ∀ d, s.dly = some d → k.inSlot d = true)
    (h3 : s.inLoopTail = true → k.inTail = true) (effects : Host.Outcome (State × Yield) Fault Refusal) :
    run k s effects = andThen effects fun p => retire p.2 p.1 := by
  unfold run
  rw [if_neg (by simp [(sisd_iff s).1 h1])]
  rw [if_neg]
  · rw [if_neg]
    intro h
    simp only [Bool.and_eq_true, Bool.not_eq_true'] at h
    rw [h3 h.1] at h
    simp at h
  · intro h
    simp only [Option.map_eq_some_iff] at h
    obtain ⟨d, hd, h⟩ := h
    rw [h2 d hd] at h
    cases h

/-- What an instruction that answers a next state did: it may stand there, its effects succeeded, it ended. -/
theorem run_eq_next {k : FlowKind} {s t : State} {effects : Host.Outcome (State × Yield) Fault Refusal}
    (h : run k s effects = .next t) :
    Sisd s ∧ (∀ d, s.dly = some d → k.inSlot d = true) ∧ (s.inLoopTail = true → k.inTail = true) ∧
      ∃ s1 y, effects = .next (s1, y) ∧ retire y s1 = .next t := by
  unfold run at h
  split at h
  · cases h
  · split at h
    · cases h
    · split at h
      · cases h
      · rename_i h1 h2 h3
        obtain ⟨⟨s1, y⟩, he, hr⟩ := andThen_eq_next.1 h
        refine ⟨(sisd_iff s).2 (by simpa using h1), fun d hd => ?_, fun ht => ?_, s1, y, he, hr⟩
        · by_contra hc
          exact h2 (by simp [hd, hc])
        · by_contra hc
          exact h3 (by simp [ht, hc])

theorem runPlain_eq_next {k : FlowKind} {s t : State} {effects : Result} (h : runPlain k s effects = .next t) :
    Sisd s ∧ (∀ d, s.dly = some d → k.inSlot d = true) ∧ (s.inLoopTail = true → k.inTail = true) ∧
      ∃ s1, effects = .next s1 ∧ retire .noBranch s1 = .next t := by
  obtain ⟨h1, h2, h3, s1, y, he, hr⟩ := run_eq_next h
  obtain ⟨s2, hs, hy⟩ := andThen_eq_next.1 he
  cases hy
  exact ⟨h1, h2, h3, s1, hs, hr⟩

/-- The end of an instruction that did not branch, where it can end. -/
theorem retire_noBranch {s : State} (h : CanEnd s) : retire .noBranch s = .next (advance s) := by
  unfold retire advance
  cases hd : s.dly with
  | some d =>
    have hl : s.atSomeLoopEnd = false := by
      by_contra hc
      have h2 := h.1 (atSomeLoopEnd_iff.1 (by simpa using hc))
      rw [hd] at h2
      cases h2
    obtain ⟨left, target, byRti⟩ := d
    cases left <;> simp [hl]
  | none =>
    dsimp only
    simp only [← atLoopEnd_iff_endsInnermost]
    split
    · rename_i he
      have hp := h.2
      obtain ⟨e0, he0, hpc⟩ := atLoopEnd_iff.1 he
      replace hp := hp e0 he0 hpc
      unfold loopEnd passEnd
      unfold State.atLoopEnd at he
      cases hl : s.loopStack with
      | nil => simp [hl] at he
      | cons e loops =>
        cases hps : s.pcStack with
        | nil => simp [hps] at hp
        | cons p below =>
          rw [hps] at hp
          simp only [List.head?_cons, Option.map_some, Option.some.injEq] at hp
          have hz : e.count - 1 = 0 ↔ e.count = 1 := by
            constructor
            · intro hz
              have := congrArg (· + 1) hz
              simpa [BitVec.sub_add_cancel] using this
            · intro hz
              simp [hz]
          simp only [hp, ne_eq, not_true_eq_false, if_false, hz, terminated_eq]
          split
          · split <;> rfl
          · split <;> rfl
    · rfl

/-- The fields that the end of an instruction can change, and no other. -/
theorem retire_eq_next {y : Yield} {s t : State} (h : retire y s = .next t) :
    ∃ pc dly loops stack, t = { s with pc := pc, dly := dly, loopStack := loops, pcStack := stack } := by
  unfold retire at h
  split at h
  · split at h
    · cases h
    · split at h <;> cases h <;> exact ⟨_, _, _, _, rfl⟩
  · split at h
    · cases h
      exact ⟨_, _, _, _, rfl⟩
    · cases h
      exact ⟨_, _, _, _, rfl⟩
    · split at h
      · unfold loopEnd at h
        split at h
        · cases h
          exact ⟨_, _, _, _, rfl⟩
        · split at h
          · cases h
          · split at h
            · cases h
            · split at h
              · split at h <;> cases h <;> exact ⟨_, _, _, _, rfl⟩
              · split at h <;> cases h <;> exact ⟨_, _, _, _, rfl⟩
      · cases h
        exact ⟨_, _, _, _, rfl⟩

/-- A plain instruction whose effects keep its place, where it is ready. -/
theorem runPlain_ready {s s1 : State} (h : Ready s) (hp : SamePlace s s1) :
    runPlain .plain s (.next s1) = .next (advance s1) := by
  unfold runPlain
  rw [run_eq h.1 (fun _ _ => rfl) (fun _ => rfl)]
  exact retire_noBranch (hp.canEnd h.2)

/-! ### Memory accesses -/

/-- A data address has the kind `k` on a bus exactly where its region has that kind and the bus reaches it. -/
theorem kindAt_eq_some {s : State} {bus : Bus} {a : Word} {k : MemKind} :
    s.kindAt bus a = some k ↔ ∃ r, s.regionAt a = some r ∧ r.reachedBy bus = true ∧ r.kind = k := by
  unfold State.kindAt
  cases s.regionAt a <;> simp

theorem memWrite_admits {s : State} {bus : Bus} {a : Word} (h : Admits s bus a) (v : Word) :
    memWrite bus a v s = .next (wordStored a v s) := by
  unfold memWrite wordStored
  obtain ⟨hc, hk | hk⟩ := h <;> simp [hc, hk]

theorem memRead_holds {s : State} {bus : Bus} {a v : Word} (h : Holds s bus a v) : memRead s bus a = .next v := by
  unfold memRead
  obtain ⟨⟨hc, hk⟩, hr | ⟨hr, hs, rfl⟩⟩ := h
  · rcases hk with hk | hk <;> simp [hc, hk, hr]
  · simp [hc, hs, hr]

theorem admits_congr {s t : State} {bus : Bus} {a : Word} (h : Admits s bus a) (h1 : t.memMap = s.memMap)
    (h2 : t.code = s.code) : Admits t bus a := by
  simpa [Admits, State.holdsCode, State.kindAt, State.regionAt, State.codeBytes, h1, h2] using h

theorem holds_congr {s t : State} {bus : Bus} {a v : Word} (h : Holds s bus a v) (h1 : t.memMap = s.memMap)
    (h2 : t.code = s.code) (h3 : t.mem = s.mem) (h4 : t.cycle = s.cycle) : Holds t bus a v := by
  simpa [Holds, Admits, State.holdsCode, State.kindAt, State.regionAt, State.codeBytes, h1, h2, h3, h4] using h

/-- What a data write that succeeds can change. -/
theorem memWrite_eq_next {s t : State} {bus : Bus} {a v : Word} (h : memWrite bus a v s = .next t) :
    t = s ∨ t = { s with mem := Memory.writeWord s.mem a v } ∨ t = { s with ioflag := v } := by
  unfold memWrite at h
  split at h
  · cases h
  · split at h <;> cases h <;> simp

/-! ### Index updates -/

theorem ofInt_toNat_add_toInt (i m : Word) : BitVec.ofInt 32 ((i.toNat : Int) + m.toInt) = i + m := by
  rw [BitVec.ofInt_add, BitVec.ofInt_toInt]
  simp

/-- An update inside its precondition (40_dag_addressing R116, R117). -/
theorem modifyIndex_ok {s : State} {n : Fin 16} {m : Word} (h : IndexOk s n m) :
    modifyIndex n m s = .next (indexUpdated n m s) := by
  have hb : Interrupt.irptlBit .cb7i = 0x00100000 ∧ Interrupt.irptlBit .cb15i = 0x00200000 := by decide
  unfold modifyIndex indexUpdated circUpdate wrapLatch wrapsUp wrapsDown indexSum
  rw [circular_eq]
  cases hc : circularOn s n with
  | false =>
    simp [ofInt_toNat_add_toInt]
    rfl
  | true =>
    obtain ⟨h1, h2, h3⟩ := h hc
    have hok : circularOk (s.getB n) (s.getL n) (s.getI n) m = true := by simp [circularOk, h1, h2, h3]
    simp only [hok, if_true, circularNext, Bool.true_and, latchWrap, wrapBit, hb.1, hb.2]
    by_cases hu : 0 ≤ m.toInt ∧ ((s.getB n).toNat : Int) + (s.getL n).toNat ≤ (s.getI n).toNat + m.toInt
    · simp [hu.1, hu.2]
    · by_cases hd : m.toInt < 0 ∧ (s.getI n).toNat + m.toInt < ((s.getB n).toNat : Int)
      · have hn : ¬ 0 ≤ m.toInt := by omega
        simp [hd.1, hd.2, hn]
      · have hu' : ¬ ((0 ≤ m.toInt) ∧ ((s.getB n).toNat : Int) + (s.getL n).toNat ≤ (s.getI n).toNat + m.toInt) := hu
        simp only [hu', hd, if_false]
        have e1 : (decide (0 ≤ m.toInt) && decide (((s.getB n).toNat : Int) + (s.getL n).toNat ≤ (s.getI n).toNat + m.toInt)) = false := by
          simpa using hu
        have e2 : (decide (m.toInt < 0) && decide ((s.getI n).toNat + m.toInt < ((s.getB n).toNat : Int))) = false := by
          simpa using hd
        simp [e1, e2]
        rfl

/-! ### Register writes -/

theorem and_xor_eq_zero {x y m : Word} (hx : x &&& m = 0) (hy : y &&& m = 0) : (x ^^^ y) &&& m = 0 := by
  apply BitVec.eq_of_getLsbD_eq
  intro i hi
  have h1 := congrArg (·.getLsbD i) hx
  have h2 := congrArg (·.getLsbD i) hy
  simp only [BitVec.getLsbD_and] at h1 h2
  simp only [BitVec.getLsbD_and, BitVec.getLsbD_xor]
  cases hm : m.getLsbD i <;> simp_all

/-- A universal register written by an instruction, where the state before the instruction lets it. -/
theorem writeUreg_ok {u : UReg} {v : Word} {s t : State} (h : writable u v s = true) (h1 : t.imask = s.imask)
    (h2 : t.lirptl = s.lirptl) (h4 : t.lirptlRead = s.lirptlRead) (h3 : (t.irptl ^^^ s.irptl) &&& 0x80000201 = 0) :
    writeUreg u v t = .next (uregWritten u v t) := by
  cases u
  case irptl =>
    have hv : (v ^^^ t.irptl) &&& 0x80000201 = 0 := by
      have hx : v ^^^ t.irptl = (v ^^^ s.irptl) ^^^ (t.irptl ^^^ s.irptl) := by
        rw [BitVec.xor_comm t.irptl, ← BitVec.xor_assoc, BitVec.xor_assoc v, BitVec.xor_self, BitVec.xor_zero]
      rw [hx]
      exact and_xor_eq_zero (by simpa [writable] using h) h3
    show loadIrptl v t = _
    unfold loadIrptl
    rw [if_pos hv]
    rfl
  case lirptl =>
    have hv : v &&& 0xF0F0FFF0 = 0 ∧ (t.keepsPointers v || t.readsPointers v) = true := by
      rw [State.keepsPointers, State.readsPointers, h2, h4, lirptlRead_eq]
      simpa [writable] using h
    show loadLirptl _ v t = _
    unfold loadLirptl
    rw [if_pos hv]
    rfl
  case laddr => rfl
  all_goals
    simp [writable, UReg.readable] at h
    first
      | done
      | exact congrArg Host.Outcome.next (setR_eq _ v t)
      | exact congrArg Host.Outcome.next (setI_eq _ v t)
      | exact congrArg Host.Outcome.next (setM_eq _ v t)
      | exact congrArg Host.Outcome.next (setL_eq _ v t)
      | exact congrArg Host.Outcome.next (setB_eq _ v t)
      | simp [writeUreg, uregWritten, loadMode1, loadMode2, loadImask, writeMode1, mode1Reserved, mode2Reserved, h, h1]

theorem or_xor_self (x y : Word) : (x ||| y) ^^^ x = y &&& ~~~x := by
  apply BitVec.eq_of_getLsbD_eq
  intro i hi
  simp only [BitVec.getLsbD_xor, BitVec.getLsbD_or, BitVec.getLsbD_and, BitVec.getLsbD_not, hi, decide_true, Bool.true_and]
  cases x.getLsbD i <;> cases y.getLsbD i <;> rfl

/-- Bits latched outside a mask leave the mask's bits. -/
theorem latched_outside {x y m : Word} (h : y &&& m = 0) : ((x ||| y) ^^^ x) &&& m = 0 := by
  rw [or_xor_self, BitVec.and_assoc, BitVec.and_comm (~~~x), ← BitVec.and_assoc, h]
  exact BitVec.zero_and

theorem computeLatches_outside (l : BitVec 4) : (l.setWidth 32 <<< 23 : Word) &&& 0x80000201 = 0 := by
  revert l
  decide

theorem wrapLatch_outside (s : State) (n : Fin 16) (m : Word) : wrapLatch s n m &&& 0x80000201 = 0 := by
  unfold wrapLatch
  split
  · split
    · rfl
    · split <;> rfl
  · rfl

/-- An operation latches no reserved interrupt. -/
theorem applyCompute_irptl_outside (slot : Config.Slot) (c : Compute) (inp : Config.ComputeInput) (s : State) :
    ((applyCompute slot c inp s).irptl ^^^ s.irptl) &&& 0x80000201 = 0 := by
  cases c
  case none => simp [applyCompute]
  all_goals exact latched_outside (computeLatches_outside _)

/-- An access form latches no reserved interrupt. -/
theorem formUpdated_irptl_outside (form : DagForm) (n : Fin 16) (m : Word) (s : State) :
    ((formUpdated form n m s).irptl ^^^ s.irptl) &&& 0x80000201 = 0 := by
  cases form
  · exact latched_outside (wrapLatch_outside s n m)
  · simp [formUpdated]

/-! ### Moves -/

theorem formUpdated_frame (form : DagForm) (n : Fin 16) (m : Word) (s : State) :
    ∃ dag dagAlt irptl, formUpdated form n m s = { s with dag := dag, dagAlt := dagAlt, irptl := irptl } := by
  cases form
  · exact ⟨_, _, _, rfl⟩
  · exact ⟨s.dag, s.dagAlt, s.irptl, rfl⟩

theorem dagUpdate_ok {form : DagForm} {s : State} {n : Fin 16} {m : Word} (h : FormOk form s n m) :
    dagUpdate form n m s = .next (formUpdated form n m s) := by
  cases form
  · exact modifyIndex_ok (h rfl)
  · rfl

theorem applyCompute_frame (slot : Config.Slot) (c : Compute) (inp : Config.ComputeInput) (s : State) :
    ∃ regs regsAlt mr mrAlt astat irptl, applyCompute slot c inp s =
      { s with regs := regs, regsAlt := regsAlt, mr := mr, mrAlt := mrAlt, astat := astat, irptl := irptl } := by
  cases c
  case none => exact ⟨_, _, _, _, _, _, rfl⟩
  all_goals exact ⟨_, _, _, _, _, _, rfl⟩

/-- A store through a DAG that is admitted. -/
theorem storeMove_ok {form : DagForm} {bus : Bus} {n : Fin 16} {m v : Word} {slot : Config.Slot} {c : Compute} {s : State}
    (hf : FormOk form s n m) (ha : Admits s bus (s.dagAddr form n m)) :
    storeMove form bus n m v slot c s =
      .next (applyCompute slot c s.computeInput (wordStored (s.dagAddr form n m) v (formUpdated form n m s))) := by
  unfold storeMove
  rw [dagUpdate_ok hf]
  obtain ⟨_, _, _, he⟩ := formUpdated_frame form n m s
  rw [andThen_next, memWrite_admits (admits_congr ha (by rw [he]) (by rw [he]))]
  rfl

/-- A load through a DAG that is admitted. -/
theorem loadMove_ok {form : DagForm} {bus : Bus} {n : Fin 16} {m x : Word} {u : UReg} {slot : Config.Slot} {c : Compute}
    {s : State} (hf : FormOk form s n m) (hh : Holds s bus (s.dagAddr form n m) x) (hw : writable u x s = true) :
    loadMove form bus n m u slot c s =
      .next (uregWritten u x (applyCompute slot c s.computeInput (formUpdated form n m s))) := by
  unfold loadMove
  rw [dagUpdate_ok hf]
  obtain ⟨_, _, _, he⟩ := formUpdated_frame form n m s
  rw [andThen_next, memRead_holds (holds_congr hh (by rw [he]) (by rw [he]) (by rw [he]) (by rw [he])), andThen_next]
  refine writeUreg_ok hw ?_ ?_ ?_ ?_
  · simp [he]
  · simp [he]
  · obtain ⟨_, _, _, _, _, _, hc⟩ := applyCompute_frame slot c s.computeInput (formUpdated form n m s)
    rw [hc, he]
    rfl
  · have h1 := applyCompute_irptl_outside slot c s.computeInput (formUpdated form n m s)
    have h2 := formUpdated_irptl_outside form n m s
    have hx : ∀ x y z : Word, x ^^^ z = (x ^^^ y) ^^^ (y ^^^ z) := by
      intro x y z
      rw [BitVec.xor_assoc, ← BitVec.xor_assoc y, BitVec.xor_self, BitVec.zero_xor]
    rw [hx _ (formUpdated form n m s).irptl]
    exact and_xor_eq_zero h1 h2

end Sys2Proof.Machine
end

