-- ==== Sys2Proof/Tests/Slice0.lean ====
section
/-! SUPPORT. Tests on fixed values: every constructor's word is decoded, every check of well-formedness refuses a term, each
instruction takes one step (the vectors of spec/95_test_vectors.md, where one is named), and the hypotheses of each
statement are met by some state and operands. -/

namespace Sys2Proof.Tests
open Sys2Proof.Machine Sys2Proof.Safety

set_option Elab.async false

/-! ### Decoding

The spec gives no bits (30_encoding R91), and the words are a free bijection of the terms' numbers (log 1). Each number is
written from the layout at the head of Sys2Proof/Decode.lean, by a script of its own: fields from bit 0 upwards, an opening of
3, 6 (5 and 6, then 3 bits) or 9 bits (7, then 6 bits), then the operands in the order of the term; an operation is 2 bits of
kind and 21 of body (13 of code, 4 and 4 of result registers, or of kind 0 with 5 of code and 16 of result registers). By
hand: `NOP` is 111 and 010010 (18), that is 0x97; `R0 = DM(I0,1)` is 101, 110, condition 11111, operation 0, bus 0, index
000, data6 000001, register 0000. -/

theorem test_decode_computeDualMove :
    decodeTableWord 48 0xCDD045024698 = some (.computeDualMove (.double 4660 0 4) .load 0 1 8 .store 7 6 12) := by decide +kernel

theorem test_decode_ifCompute :
    decodeTableWord 48 0x0001E04D8007 = some (.ifCompute .eq (.single 77 15)) := by decide +kernel

/-- Three result registers: R0, R11, R12, R13. -/
theorem test_decode_ifCompute_multi :
    decodeTableWord 48 0x000700223E07 = some (.ifCompute .always (.multi 0x02 0x3801)) := by decide +kernel

theorem test_decode_storePostUreg :
    decodeTableWord 48 0xC0E0000007C5 = some (.storePostUreg .always .none .dm 4 3 .tcount) := by decide +kernel

theorem test_decode_storePreUreg :
    decodeTableWord 48 0xC75403FFEF4D = some (.storePreUreg .notTf (.quiet 8191) .pm 2 5 .laddr) := by decide +kernel

theorem test_decode_loadPostUreg :
    decodeTableWord 48 0x0B0C000007D5 = some (.loadPostUreg .always .none .pm 1 4 (.r 5)) := by decide +kernel

theorem test_decode_loadPreUreg :
    decodeTableWord 48 0x9EC80000049D = some (.loadPreUreg .gt .none .dm 1 3 (.b 15)) := by decide +kernel

theorem test_decode_storePostData6 :
    decodeTableWord 48 0x004800000425 = some (.storePostData6 .ne .none .dm 1 1 0) := by decide +kernel

theorem test_decode_storePreData6 :
    decodeTableWord 48 0x9FFC0000032D = some (.storePreData6 .flag3 .none .pm 7 0x3f 9) := by decide +kernel

theorem test_decode_loadPostData6 :
    decodeTableWord 48 0x147C00000135 = some (.loadPostData6 .av .none .pm 7 0x11 1) := by decide +kernel

theorem test_decode_loadPreData6 :
    decodeTableWord 48 0x2808000003FD = some (.loadPreData6 .notLce .none .dm 1 0x20 2) := by decide +kernel

theorem test_decode_moveUreg :
    decodeTableWord 48 0xC380000007C6 = some (.moveUreg .always .none .tcount .tperiod) := by decide +kernel

theorem test_decode_shiftStorePost :
    decodeTableWord 48 0x32806009BE0F = some (.shiftStorePost .always (.single 9 3) .dm 2 1 3) := by decide +kernel

theorem test_decode_shiftLoadPost :
    decodeTableWord 48 0x42A06009BE17 = some (.shiftLoadPost .always (.single 9 3) .pm 2 1 4) := by decide +kernel

theorem test_decode_modifyReg :
    decodeTableWord 48 0x15E000003E1F = some (.modifyReg .always .none 15 10) := by decide +kernel

theorem test_decode_storeDirect :
    decodeTableWord 48 0x038002804016 = some (.storeDirect .dm 0x50080 (.r 7)) := by decide +kernel

theorem test_decode_loadDirect :
    decodeTableWord 48 0x127FFFFFFF5E = some (.loadDirect .pm 0xfffffffe (.m 4)) := by decide +kernel

theorem test_decode_storePreData32 :
    decodeTableWord 48 0x310000003FD3 = some (.storePreData32 .dm 5 127 .lcntr) := by decide +kernel

theorem test_decode_loadPreData32 :
    decodeTableWord 48 0x00000002002C = some (.loadPreData32 .pm 2 0x400 (.r 0)) := by decide +kernel

theorem test_decode_storePostImm :
    decodeTableWord 48 0x0000024681A6 = some (.storePostImm .dm 3 0 0x1234) := by decide +kernel

theorem test_decode_loadImm :
    decodeTableWord 48 0x000000016C2E = some (.loadImm (.l 0) 11) := by decide +kernel

theorem test_decode_modifyImm :
    decodeTableWord 48 0x000000260827 = some (.modifyImm 4 304) := by decide +kernel

theorem test_decode_bitrev :
    decodeTableWord 48 0x00000000862F = some (.bitrev 3 4) := by decide +kernel

theorem test_decode_jumpDirect :
    decodeTableWord 48 0x008100600037 = some (.jumpDirect .eq 0x40180 false true false) := by decide +kernel

theorem test_decode_jumpRel :
    decodeTableWord 48 0x01400006443F = some (.jumpRel .le 25 true false true) := by decide +kernel

theorem test_decode_callDirect :
    decodeTableWord 48 0x004100800247 = some (.callDirect .lt 0x40200 true) := by decide +kernel

theorem test_decode_callRel :
    decodeTableWord 48 0x003FFFFC3E4F = some (.callRel .always 0xfffff0 false) := by decide +kernel

theorem test_decode_jumpInd :
    decodeTableWord 48 0x00002B076257 = some (.jumpInd .ge 5 3 false false false (.elseCompute (.quiet 5))) := by decide +kernel

theorem test_decode_jumpShort :
    decodeTableWord 48 0x0000001FD05F = some (.jumpShort .sz 0x3f true false false .none) := by decide +kernel

theorem test_decode_callInd :
    decodeTableWord 48 0x0080073E0A67 = some (.callInd .mv 0 7 true (.withCompute (.single 3 2))) := by decide +kernel

theorem test_decode_callShort :
    decodeTableWord 48 0x000000009C6F = some (.callShort .bm 2 false .none) := by decide +kernel

theorem test_decode_jumpIndMove :
    decodeTableWord 48 0x646000015D19 = some (.jumpIndMove .ac 5 3 (.quiet 1) .load 1 2 6) := by decide +kernel

theorem test_decode_jumpShortMove :
    decodeTableWord 48 0x644000000932 = some (.jumpShortMove .ms 9 .none .store 1 2 6) := by decide +kernel

theorem test_decode_rts :
    decodeTableWord 48 0x000012C96077 = some (.rts .ne true false (.withCompute (.single 300 0))) := by decide +kernel

theorem test_decode_rti :
    decodeTableWord 48 0x000000007E7F = some (.rti .always true .none) := by decide +kernel

theorem test_decode_doCountImm :
    decodeTableWord 48 0x020082000B0E = some (.doCountImm 44 (.absolute 0x40104)) := by decide +kernel

theorem test_decode_doCountUreg :
    decodeTableWord 48 0x000000050687 = some (.doCountUreg (.r 3) (.relative 2)) := by decide +kernel

theorem test_decode_doUntil :
    decodeTableWord 48 0x007FFFFFFE8F = some (.doUntil (.relative 0xffffff) .always) := by decide +kernel

theorem test_decode_nop :
    decodeTableWord 48 0x000000000097 = some (.nop) := by decide +kernel

theorem test_decode_idle :
    decodeTableWord 48 0x00000000009F = some (.idle) := by decide +kernel

theorem test_decode_bitSet :
    decodeTableWord 48 0x0000240000A7 = some (.bitSet .mode1 0x12000) := by decide +kernel

theorem test_decode_bitClr :
    decodeTableWord 48 0x000000008EAF = some (.bitClr .ustat1 4) := by decide +kernel

theorem test_decode_bitTgl :
    decodeTableWord 48 0x0001000004B7 = some (.bitTgl .astat 0x80000) := by decide +kernel

theorem test_decode_bitTst :
    decodeTableWord 48 0x00000000AEBF = some (.bitTst .ustat1 5) := by decide +kernel

theorem test_decode_bitXor :
    decodeTableWord 48 0x1FFFFFFFE6C7 = some (.bitXor .imask 0xffffffff) := by decide +kernel

theorem test_decode_pushSts :
    decodeTableWord 48 0x0000000000CF = some (.pushSts) := by decide +kernel

theorem test_decode_popSts :
    decodeTableWord 48 0x0000000000D7 = some (.popSts) := by decide +kernel


/-! ### Ill-formed terms: one for each check (spec/30_encoding.md R96, R98, spec/40_dag_addressing.md R123) -/

theorem test_illFormed_lceAsCondition : (Instr.ifCompute .lce (.single 1 0)).illFormed = some .lceAsCondition := by decide
theorem test_illFormed_termination : (Instr.doUntil (.relative 2) .lce).illFormed = some .termination := by decide
theorem test_illFormed_uregNotAdmitted :
    (Instr.moveUreg .always .none .pcstk (.r 0)).illFormed = some .uregNotAdmitted := by decide
theorem test_illFormed_sregNotAdmitted : (Instr.bitSet .flags 1).illFormed = some .sregNotAdmitted := by decide
theorem test_illFormed_twoWrites :
    (Instr.loadPostData6 .always (.single 7 3) .dm 0 1 3).illFormed = some .twoWrites := by decide
/-- Vector A26: `i1=dm(i0,m0);`. -/
theorem test_illFormed_uregOfAddressingDag :
    (Instr.loadPostUreg .always .none .dm 0 0 (.i 1)).illFormed = some .uregOfAddressingDag := by decide
theorem test_illFormed_mixedDags : (Instr.modifyReg .always .none 7 8).illFormed = some .mixedDags := by decide
theorem test_illFormed_branchModifiers :
    (Instr.jumpDirect .always 0x040100 false true true).illFormed = some .branchModifiers := by decide
theorem test_illFormed_noResult : (Instr.ifCompute .always (.multi 7 0)).illFormed = some .noResult := by decide
/-- An ill-formed term's number is refused by name (30_encoding R96): `PC = 5`. -/
theorem test_decode_refuses_illFormed :
    (match termOf (termNumber (.loadImm .pc 5)) with
      | .error e => decide (e = .illFormed .uregNotAdmitted)
      | .ok _ => false) = true := by decide +kernel
theorem test_decode_refuses_other_bits :
    (match termOf 0x800000000097 with
      | .error e => decide (e = .notEncoded)
      | .ok _ => false) = true := by decide +kernel
theorem test_decode_refuses_short_bytes :
    (match decodeBytes [0x97, 0, 0, 0, 0] with
      | .error e => decide (e = .truncated)
      | .ok _ => false) = true := by decide +kernel

/-! ### Helpers -/

/-- The outcome is a next state that passes the test. -/
def onNext (r : Result) (f : State → Bool) : Bool :=
  match r with
  | .next t => f t
  | _ => false

/-- The outcome is this fault. -/
def stops (r : Result) (e : Fault) : Bool :=
  match r with
  | .fault f => decide (f = e)
  | _ => false

/-- The outcome is this refusal. -/
def refuses (r : Result) (e : Refusal) : Bool :=
  match r with
  | .refused f => decide (f = e)
  | _ => false

/-- After reset, at 0x040110. -/
def start : State := { State.reset with pc := 0x040110 }

/-- After reset, with a data word written. -/
def withWord (a v : Word) (s : State) : State := wordStored a v s

/-- The state with a MODE1 that is in force. -/
def inMode (m : Word) (s : State) : State := { s with mode1 := m, mode1Act := m }

/-- Index register `n` in a circular buffer, circular buffering on. -/
def circ (n : Fin 16) (b l i : Word) : State := inMode 0x01000000 (setI n i (setB n b (setL n l start)))

/-- In the first delay slot of a branch to 0x040180. -/
def inSlot : State := { start with dly := some ⟨.two, 0x040180, false⟩ }

/-- At the end of a counted loop with `n` passes to go. -/
def atEnd (n : Word) : State :=
  { start with pcStack := [⟨0x04010E, .loop⟩], loopStack := [⟨0x040110, .lce, n⟩] }

/-- In the handler of an interrupt that interrupted 0x040105. -/
def serving (n : Interrupt) : State :=
  { start with isrv := [n], pcStack := [⟨0x040105, .interrupt⟩] }

/-- Vector I1: TMZHI latched, unmasked, enabled. -/
def tmzhiDue : State :=
  { inMode 0x00001000 start with pc := 0x040105, imask := 0x00000013, irptl := 0x00000010, astat := 0x00000005 }

/-! ### One step of each instruction, from spec/95_test_vectors.md where a vector is named -/

/-- Vector M1 without its operations. -/
theorem test_computeDualMove :
    onNext (exec (.computeDualMove .none .load 0 0 8 .load 0 0 12)
      (setI 0 0x050000 (setM 0 1 (setI 8 0x060000 (setM 8 2 (withWord 0x050000 7 (withWord 0x060000 9 start)))))))
      (fun t => t.getR 8 == 7 && t.getR 12 == 9 && t.getI 0 == 0x050001 && t.getI 8 == 0x060002) = true := by
  decide +kernel
/-- Vector A25. -/
theorem test_computeDualMove_conflict :
    stops (exec (.computeDualMove .none .store 0 0 1 .load 0 0 2)
      (setI 0 0x050000 (setM 0 1 (setI 8 0x050000 (setM 8 1 (setR 1 5 start)))))) .dualAccessConflict = true := by
  decide +kernel
theorem test_ifCompute_false :
    onNext (exec (.ifCompute .tf (.single 1 0)) (setR 0 9 start)) (fun t => t.getR 0 == 9 && t.pc == 0x040111) = true := by
  decide +kernel
/-- Vector A2. -/
theorem test_storePostUreg :
    onNext (exec (.storePostUreg .always .none .dm 0 3 (.r 3)) (setI 0 0x050000 (setM 3 5 (setR 3 0xDEADBEEF start))))
      (fun t => Memory.readWord t.mem 0x050000 == some 0xDEADBEEF && t.getI 0 == 0x050005) = true := by decide +kernel
/-- Vector A15. -/
theorem test_storePostUreg_outside_buffer :
    stops (exec (.storePostUreg .always .none .dm 2 2 (.r 0)) (setM 2 3 (circ 2 0x050000 8 0x050009)))
      .circularPrecondition = true := by decide +kernel
theorem test_storePreUreg :
    onNext (exec (.storePreUreg .always .none .pm 2 1 .tcount) { setI 10 0x060000 (setM 9 4 start) with tcount := 0x64 })
      (fun t => Memory.readWord t.mem 0x060004 == some 0x64 && t.getI 10 == 0x060000) = true := by decide +kernel
/-- Vector A18. -/
theorem test_loadPostUreg_bit_reversed :
    onNext (exec (.loadPostUreg .always .none .dm 0 0 (.r 0))
      (inMode 2 (setI 0 0x0000A000 (setM 0 0x08000000 (withWord 0x00050000 0xC1 start)))))
      (fun t => t.getR 0 == 0xC1 && t.getI 0 == 0x0800A000) = true := by decide +kernel
/-- Vector A12. -/
theorem test_loadPostUreg_wraps :
    onNext (exec (.loadPostUreg .always .none .dm 7 7 (.r 0))
      (setM 7 1 (withWord 0x050003 6 (circ 7 0x050000 4 0x050003))))
      (fun t => t.getR 0 == 6 && t.getI 7 == 0x050000 && t.irptl == 0x00100000) = true := by decide +kernel
/-- Vector A1. -/
theorem test_loadPreUreg :
    onNext (exec (.loadPreUreg .always .none .dm 1 3 (.r 8)) (setI 1 0x050000 (setM 3 5 (withWord 0x050005 0x11 start))))
      (fun t => t.getR 8 == 0x11 && t.getI 1 == 0x050000) = true := by decide +kernel
theorem test_storePostData6 :
    onNext (exec (.storePostData6 .always .none .dm 1 0x3F 2) (setI 1 0x050003 (setR 2 0x77 start)))
      (fun t => Memory.readWord t.mem 0x050003 == some 0x77 && t.getI 1 == 0x050002) = true := by decide +kernel
theorem test_storePreData6 :
    onNext (exec (.storePreData6 .always .none .pm 7 0x20 2) (setI 15 0x060020 (setR 2 0x77 start)))
      (fun t => Memory.readWord t.mem 0x060000 == some 0x77 && t.getI 15 == 0x060020) = true := by decide +kernel
/-- Vector A4. -/
theorem test_loadPostData6 :
    onNext (exec (.loadPostData6 .always .none .dm 1 0x3F 2) (setI 1 0x050003 (withWord 0x050003 0x77 start)))
      (fun t => t.getR 2 == 0x77 && t.getI 1 == 0x050002) = true := by decide +kernel
/-- Vector A5. -/
theorem test_loadPreData6 :
    onNext (exec (.loadPreData6 .always .none .dm 1 0x20 2) (setI 1 0x050020 (withWord 0x050000 0x55 start)))
      (fun t => t.getR 2 == 0x55 && t.getI 1 == 0x050020) = true := by decide +kernel
/-- Vector M4. -/
theorem test_moveUreg :
    onNext (exec (.moveUreg .always .none (.b 1) (.r 0)) (setR 0 0x050040 start))
      (fun t => t.getB 1 == 0x050040 && t.getI 1 == 0x050040) = true := by decide +kernel
/-- Vector M6: the store takes the register's value from before the shift. -/
theorem test_shiftStorePost :
    onNext (exec (.shiftStorePost .always (.single 1 3) .dm 2 1 3) (setI 2 0x050000 (setM 1 2 (setR 3 0x0F start))))
      (fun t => Memory.readWord t.mem 0x050000 == some 0x0F && t.getI 2 == 0x050002) = true := by decide +kernel
theorem test_shiftLoadPost :
    onNext (exec (.shiftLoadPost .always (.single 1 3) .pm 2 1 4) (setI 10 0x050000 (setM 9 2 (withWord 0x050000 8 start))))
      (fun t => t.getR 4 == 8 && t.getI 10 == 0x050002) = true := by decide +kernel
/-- Vector A13. -/
theorem test_modifyReg_wraps :
    onNext (exec (.modifyReg .always .none 15 15) (setM 15 0xFFFFFFFF (circ 15 0x060000 4 0x060000)))
      (fun t => t.getI 15 == 0x060003 && t.irptl == 0x00200000) = true := by decide +kernel
/-- Vector M8. -/
theorem test_storeDirect :
    onNext (exec (.storeDirect .dm 0x050080 (.r 7)) (setR 7 0x1234 start))
      (fun t => Memory.readWord t.mem 0x050080 == some 0x1234) = true := by decide +kernel
/-- Vector M20. -/
theorem test_storeDirect_to_code :
    stops (exec (.storeDirect .dm 0x040110 (.r 0)) (placeCode 0x040110 0x97 start)) .writeToCode = true := by decide +kernel
/-- Vector M9. -/
theorem test_loadDirect :
    onNext (exec (.loadDirect .dm 0x050080 (.m 4)) (withWord 0x050080 0x1234 start)) (fun t => t.getM 4 == 0x1234) = true := by
  decide +kernel
/-- Vector M19. -/
theorem test_loadDirect_unmapped :
    stops (exec (.loadDirect .dm 0x070000 (.r 0)) { start with memMap := [⟨0x050000, 0x0501FF, .data, true, true⟩] })
      .readUnmapped = true := by decide +kernel
/-- Vector M10. -/
theorem test_storePreData32 :
    onNext (exec (.storePreData32 .dm 5 127 .lcntr) { setI 5 0x050000 start with lcntr := 0x2C })
      (fun t => Memory.readWord t.mem 0x05007F == some 0x2C && t.getI 5 == 0x050000) = true := by decide +kernel
/-- Vector M12. -/
theorem test_loadPreData32 :
    onNext (exec (.loadPreData32 .pm 2 0x400 (.r 0)) (setI 10 0x060000 (withWord 0x060400 0x42000000 start)))
      (fun t => t.getR 0 == 0x42000000 && t.getI 10 == 0x060000) = true := by decide +kernel
/-- Vector M13. -/
theorem test_storePostImm :
    onNext (exec (.storePostImm .dm 3 0 0x1234) (setI 3 0x050000 (setM 0 1 start)))
      (fun t => Memory.readWord t.mem 0x050000 == some 0x1234 && t.getI 3 == 0x050001) = true := by decide +kernel
/-- Vector A22. -/
theorem test_loadImm_base :
    onNext (exec (.loadImm (.b 3) 0x050000) start) (fun t => t.getB 3 == 0x050000 && t.getI 3 == 0x050000) = true := by
  decide +kernel
/-- Vector A6. -/
theorem test_modifyImm : onNext (exec (.modifyImm 4 1) (setI 4 0xFFFFFFFF start)) (fun t => t.getI 4 == 0) = true := by
  decide +kernel
/-- Vector M18. -/
theorem test_bitrev : onNext (exec (.bitrev 3 4) (setI 3 4 start)) (fun t => t.getI 3 == 0x10000000) = true := by
  decide +kernel
/-- The second value of the source's example X3. -/
theorem test_bitrev_source :
    onNext (exec (.bitrev 3 4) (setI 3 0x00050000 start)) (fun t => t.getI 3 == 0x2000A000) = true := by decide +kernel
/-- Vector F7, its first step. -/
theorem test_jumpDirect_delayed :
    onNext (exec (.jumpDirect .always 0x040180 true false false) start)
      (fun t => t.pc == 0x040111 && t.dly == some ⟨.two, 0x040180, false⟩) = true := by decide +kernel
/-- Vector F8. -/
theorem test_jumpDirect_in_slot :
    stops (exec (.jumpDirect .always 0x040190 false false false) inSlot) .branchInDelaySlot = true := by decide +kernel
/-- Vector F4. -/
theorem test_jumpRel :
    onNext (exec (.jumpRel .always 0xFFFFF0 false false false) start) (fun t => t.pc == 0x040100) = true := by decide +kernel
/-- Vector F9, the call. -/
theorem test_callDirect :
    onNext (exec (.callDirect .always 0x040200 false) start)
      (fun t => t.pc == 0x040200 && t.pcStack == [⟨0x040111, .call⟩]) = true := by decide +kernel
/-- Vector F26. -/
theorem test_callDirect_overflow :
    stops (exec (.callDirect .always 0x040200 false) { start with pcStack := List.replicate 30 ⟨0, .call⟩ })
      .pcStackOverflow = true := by decide +kernel
/-- The return address of a delayed call (vector F10). -/
theorem test_callRel_delayed :
    onNext (exec (.callRel .always 0xF0 true) start)
      (fun t => t.pc == 0x040111 && t.pcStack == [⟨0x040113, .call⟩] && t.dly == some ⟨.two, 0x040200, false⟩) = true := by
  decide +kernel
/-- Vector F5. -/
theorem test_jumpInd :
    onNext (exec (.jumpInd .always 5 3 false false false .none) (setI 11 0x040200 (setM 13 8 start)))
      (fun t => t.pc == 0x040208 && t.getI 11 == 0x040200) = true := by decide +kernel
/-- Vector F6. -/
theorem test_jumpInd_range :
    stops (exec (.jumpInd .always 5 3 false false false .none) (setI 11 0x01040200 (setM 13 8 start))) .branchTargetRange
      = true := by decide +kernel
theorem test_jumpShort :
    onNext (exec (.jumpShort .notTf 0x3F false false false .none) start) (fun t => t.pc == 0x04010F) = true := by
  decide +kernel
theorem test_callInd :
    onNext (exec (.callInd .always 5 3 false .none) (setI 11 0x040200 (setM 13 8 start)))
      (fun t => t.pc == 0x040208 && t.pcStack == [⟨0x040111, .call⟩]) = true := by decide +kernel
theorem test_callShort_untaken :
    onNext (exec (.callShort .tf 2 false .none) start) (fun t => t.pc == 0x040111 && t.pcStack == []) = true := by
  decide +kernel
/-- Not taken: the move runs (R212). -/
theorem test_jumpIndMove_untaken :
    onNext (exec (.jumpIndMove .tf 5 3 .none .store 1 2 6) (setI 1 0x050000 (setM 2 1 (setR 6 3 start))))
      (fun t => t.pc == 0x040111 && Memory.readWord t.mem 0x050000 == some 3 && t.getI 1 == 0x050001) = true := by
  decide +kernel
/-- Taken: the move does not run (R213). -/
theorem test_jumpShortMove_taken :
    onNext (exec (.jumpShortMove .notTf 0x10 .none .store 1 2 6) (setI 1 0x050000 (setM 2 1 start)))
      (fun t => t.pc == 0x040120 && t.mem == [] && t.getI 1 == 0x050000) = true := by decide +kernel
/-- Vector F9, the return. -/
theorem test_rts :
    onNext (exec (.rts .always false false .none) { start with pcStack := [⟨0x040111, .call⟩] })
      (fun t => t.pc == 0x040111 && t.pcStack == []) = true := by decide +kernel
/-- Vector F12. -/
theorem test_rts_lr :
    stops (exec (.rts .always false true .none) { start with pcStack := [⟨0x040113, .call⟩] }) .refusedLR = true := by
  decide +kernel
/-- Vector I2. -/
theorem test_rti :
    onNext (exec (.rti .always false .none)
      { inMode 0x00001000 (serving .tmzhi) with statusStack := [⟨0x00001000, 0x00000005⟩], astat := 0x00080002 })
      (fun t => t.pc == 0x040105 && t.mode1 == 0x00001000 && t.astat == 0x00080005 && t.isrv == [] && t.pcStack == [] &&
        t.statusStack == []) = true := by decide +kernel
/-- Vector F24. -/
theorem test_rti_outside : stops (exec (.rti .always false .none) start) .rtiOutsideHandler = true := by decide +kernel
/-- Vector F14, the `DO`. -/
theorem test_doCountImm :
    onNext (exec (.doCountImm 3 (.relative 1)) start)
      (fun t => t.loopStack == [⟨0x040111, .lce, 3⟩] && t.pcStack == [⟨0x040111, .loop⟩] && t.lcntr == 3) = true := by
  decide +kernel
/-- Vector F15. -/
theorem test_doCountImm_zero : stops (exec (.doCountImm 0 (.relative 1)) start) .loopCountZero = true := by decide +kernel
theorem test_doCountUreg :
    onNext (exec (.doCountUreg (.r 3) (.absolute 0x040112)) (setR 3 0x12345 start))
      (fun t => t.loopStack == [⟨0x040112, .lce, 0x12345⟩] && t.lcntr == 0x12345) = true := by decide +kernel
/-- Vector F16. -/
theorem test_doUntil_end : stops (exec (.doUntil (.relative 0) .always) start) .loopEndBeforeStart = true := by
  decide +kernel
theorem test_doUntil :
    onNext (exec (.doUntil (.relative 2) .always) { start with lcntr := 7 })
      (fun t => t.loopStack == [⟨0x040112, .always, 0⟩] && t.lcntr == 7) = true := by decide +kernel
/-- The last pass leaves the loop (R219). -/
theorem test_nop_last_pass :
    onNext (exec .nop (atEnd 1)) (fun t => t.pc == 0x040111 && t.loopStack == [] && t.pcStack == []) = true := by
  decide +kernel
theorem test_nop_first_pass :
    onNext (exec .nop (atEnd 2)) (fun t => t.pc == 0x04010E && t.loopStack == [⟨0x040110, .lce, 1⟩]) = true := by
  decide +kernel
/-- Vector F23. -/
theorem test_idle : onNext (exec .idle start) (fun t => t.idle && t.pc == 0x040111) = true := by decide +kernel
/-- Vector B1. -/
theorem test_bitSet :
    onNext (exec (.bitSet .ustat1 0x0F) { start with ustat1 := 0xF0 }) (fun t => t.ustat1 == 0xFF && t.astat == 0) = true := by
  decide +kernel
/-- Vector B10. -/
theorem test_bitSet_reserved : refuses (exec (.bitSet .mode1 0x00000300) start) .reservedBit = true := by decide +kernel
/-- Vector B2. -/
theorem test_bitClr : onNext (exec (.bitClr .ustat1 0x0F) { start with ustat1 := 0xFF }) (fun t => t.ustat1 == 0xF0) = true := by
  decide +kernel
/-- Vector B3. -/
theorem test_bitTgl : onNext (exec (.bitTgl .ustat1 0xFF) { start with ustat1 := 0xF0 }) (fun t => t.ustat1 == 0x0F) = true := by
  decide +kernel
/-- Vectors B4 and B5. -/
theorem test_bitTst :
    onNext (exec (.bitTst .ustat1 5) { start with ustat1 := 5 }) (fun t => t.astat == 0x00040000) &&
      onNext (exec (.bitTst .ustat1 5) { start with ustat1 := 4, astat := 0x00040000 }) (fun t => t.astat == 0) = true := by
  decide +kernel
/-- Vector B8. -/
theorem test_bitXor :
    onNext (exec (.bitXor .ustat1 7) { start with ustat1 := 5, astat := 0x00040000 }) (fun t => t.astat == 0) = true := by
  decide +kernel
/-- Vector B12. -/
theorem test_pushSts :
    onNext (exec .pushSts { inMode 0x01001000 start with astat := 1, mmask := 0x01200000 })
      (fun t => t.statusStack == [⟨0x01001000, 1⟩] && t.mode1 == 0x00001000) = true := by decide +kernel
/-- Vector B13. -/
theorem test_popSts :
    onNext (exec .popSts { inMode 0x00001000 start with astat := 0x00080004, statusStack := [⟨0x01001000, 1⟩] })
      (fun t => t.mode1 == 0x01001000 && t.astat == 0x00080001 && t.statusStack == []) = true := by decide +kernel
/-- Vector B14. -/
theorem test_popSts_empty : stops (exec .popSts start) .statusStackUnderflow = true := by decide +kernel

/-! ### Steps: interrupts, timer, fetch -/

/-- Vector I1. -/
theorem test_step_takes_interrupt :
    onNext (coreStep exec { tmzhiDue with irqWait := some 0 })
      (fun t => t.irptl == 0 && t.pcStack == [⟨0x040105, .interrupt⟩] && t.statusStack == [⟨0x00001000, 5⟩] &&
        t.mode1 == 0x00001000 && t.isrv == [.tmzhi] && t.pc == 0x040010) = true := by decide +kernel
/-- Vector I3: which of two. -/
theorem test_takeable_highest : ({ tmzhiDue with irptl := 0x50, imask := 0x53 } : State).takeable = some .tmzhi := by
  decide +kernel
/-- Vectors I6 and I7. -/
theorem test_takeable_nesting :
    ({ tmzhiDue with isrv := [.irq0i] } : State).takeable = none ∧
      ({ tmzhiDue with isrv := [.irq0i], mode1 := 0x00001800 } : State).takeable = some .tmzhi := by decide +kernel
/-- Vector I13. -/
theorem test_step_takes_lirptl_interrupt :
    onNext (coreStep exec { inMode 0x00001000 start with imask := 0x00004003, lirptl := 0x00020002, irqWait := some 0 })
      (fun t => t.lirptl == 0x00020000 && t.isrv == [.lp1i] && t.pc == 0x04003C && t.statusStack == []) = true := by
  decide +kernel
/-- Vector T1. -/
theorem test_timer :
    let s : State := { start with mode2 := 0x20, tcount := 2, tperiod := 3 }
    (cycles 2 s).tcount = 0 ∧ (cycles 3 s).tcount = 3 ∧ (cycles 3 s).irptl = 0x00400010 ∧ (cycles 4 s).tcount = 2 := by
  decide +kernel
theorem test_step_runs_placed_word :
    onNext (step (State.reset.withFetchWord 48 0x000000000097)) (fun t => t.pc == 0x040006) = true := by decide +kernel
theorem test_step_fetches_nothing_at_reset : stops (step State.reset) .fetchUnmapped = true := by decide +kernel
/-- Directly after a write of SRD1L the alternate I0 and the primary one differ: the load stops (10_state R46). -/
theorem test_mode1_latency :
    stops (withLatency (exec (.modifyImm 0 1)) { start with mode1 := 0x10, mode1Wrote := true }) .mode1Latency = true := by
  decide +kernel

/-! ### Witnesses: states and operands that meet the hypotheses of each statement -/
theorem witness_DecodeEncodeRoundTrip :
    (Instr.loadImm (.l 15) 0xFFFFFFFF).WellFormed ∧ (Instr.ifCompute .always (.multi 31 0xFFFF)).WellFormed ∧
      (Instr.ifCompute .always (.multi 0 1)).WellFormed ∧ encode .nop = encode .nop := ⟨by decide, by decide, by decide, rfl⟩
/-- A word that some instruction encodes to, whatever the words are, and one that none does: its number has opening 7, 63. -/
theorem witness_DecodeAcceptsOnlyEncodings :
    decode (encode .nop) = .ok .nop ∧ ∀ i : Instr, i.WellFormed → encode i ≠ Config.wordCode 0x1FF := by
  refine ⟨(Laws.decode_encode_eq .nop).trans (by decide +kernel), ?_⟩
  intro i _ h
  have h1 : pack i.fields % 2 ^ 48 = 511 := by
    have := congrArg BitVec.toNat ((Laws.encode_eq_iff i _).mp h)
    rwa [termNumber, BitVec.toNat_ofNat, Equiv.symm_apply_apply] at this
  cases i <;> simp only [Instr.fields, List.cons_append, List.nil_append, pack] at h1 <;> omega
theorem witness_NopAndIdleResult :
    Ready inSlot ∧ Ready (atEnd 1) ∧ ReadyOutside start ∧ ReadyOutside (atEnd 0xFFFFFFFF) := by decide
theorem witness_IfComputeResult : Ready inSlot ∧ Ready (atEnd 1) ∧ truth start .tf = false ∧ truth start .always = true ∧
    Compute.quiet 0 ≠ .none ∧ 0 ∉ (Compute.quiet 0).dests ∧ 15 ∈ (Compute.multi 0 0x8001).dests := by
  decide
theorem witness_StoreUregResult :
    let s := setM 3 8 (circ 0 0x050000 8 0x050007)
    Ready s ∧ (truth s .always = true ∧ UReg.laddr.readable = true ∧
      FormOk .post s (dagIndex .dm 0) (s.getM (dagIndex .dm 3)) ∧
      Admits s .dm (s.dagAddr .post (dagIndex .dm 0) (s.getM (dagIndex .dm 3)))) ∧
      ((UReg.r 15).readable = true ∧ Admits s .pm (s.dagAddr .pre (dagIndex .pm 7) 0)) ∧ truth s .tf = false :=
  by decide
theorem witness_StoreUregResult_refused : (UReg.m 7).ofDag .dm = true ∧ (UReg.b 8).ofDag .pm = true ∧
    (UReg.s 15).readable = false := by decide
theorem witness_LoadUregResult :
    let s := withWord 0x050000 0xFFFFFFFF (setM 3 0xFFFFFFF8 (circ 0 0x050000 8 0x050000))
    Ready s ∧ truth s .always = true ∧ FormOk .post s (dagIndex .dm 0) (s.getM (dagIndex .dm 3)) ∧
      Holds s .dm (s.dagAddr .post (dagIndex .dm 0) (s.getM (dagIndex .dm 3))) 0xFFFFFFFF ∧
      Holds s .dm (s.dagAddr .pre (dagIndex .dm 0) (s.getM (dagIndex .dm 2))) 0xFFFFFFFF ∧
      writable (.b 8) 0xFFFFFFFF s = true ∧ truth s .tf = false := by decide +kernel
/-- The other way of `Holds`: a `shared` word that the run has not written. -/
theorem witness_LoadUregResult_shared :
    let s : State := { start with memMap := [⟨0, 0xFFFFFFFF, .shared, true, true⟩] }
    Ready s ∧ Holds s .pm 0 (Config.sharedWord s.cycle 0) :=
  ⟨by decide, by decide, .inr ⟨by decide, by decide, rfl⟩⟩
theorem witness_LoadUregResult_refused : (UReg.l 0).ofDag .dm = true ∧ (UReg.i 15).ofDag .pm = true ∧ 15 ∈ (Compute.double 0 0 15).dests := by
  decide
theorem witness_Data6MoveResult_refused : 15 ∈ (Compute.single 0 15).dests := by decide
theorem witness_Data6MoveResult :
    let s := withWord 0x050007 1 (circ 8 0x050000 32 0x050007)
    Ready s ∧ truth s .always = true ∧ FormOk .post s (dagIndex .pm 0) ((0x20 : BitVec 6).signExtend 32) ∧
      Admits s .pm (s.dagAddr .pre (dagIndex .pm 0) ((0x1F : BitVec 6).signExtend 32)) ∧
      Holds s .pm (s.dagAddr .post (dagIndex .pm 0) ((0x20 : BitVec 6).signExtend 32)) 1 ∧ truth s .tf = false := by
  decide +kernel
theorem witness_MoveUregResult :
    Ready start ∧ truth start .always = true ∧ UReg.imask.readable = true ∧
      writable .imask (uregRead start .imask) start = true ∧ UReg.mode2.readable = true ∧
      writable (.b 0) (uregRead start .mode2) start = true ∧ truth start .tf = false := by decide
/-- In a handler, where the mask pointers read as free values, a write of LIRPTL with these bits 0 goes through, by a move and
by `BIT CLR` of the bits themselves (60_exceptions R266, log 19); a `BIT SET` of a reserved bit does not, nor do `BIT SET` and
`BIT TGL` of a mask pointer, whatever it reads as (44_system_register R230). -/
theorem test_lirptl_written_in_handler :
    let s : State := { serving .lp0i with lirptl := 0x000F000F }
    onNext (exec (.loadImm .lirptl 0x00030001) s) (fun t => t.lirptl == 0x00030001) = true ∧
      onNext (exec (.bitClr .lirptl 0x0F000001) s) (fun t => t.lirptl == 0x000F000E) = true ∧
      refuses (exec (.bitSet .lirptl 0x00100000) s) .reservedBit = true ∧
      refuses (exec (.bitSet .lirptl 0x01000000) s) .reservedBit = true ∧
      refuses (exec (.bitTgl .lirptl 0x0F000000) s) .reservedBit = true := by decide +kernel
/-- `LADDR = 5` inside a loop: the loop stack and LCNTR stay (10_state R31, R40, log 18). -/
theorem test_laddr_write_keeps_loop :
    onNext (exec (.loadImm .laddr 5) { start with loopStack := [⟨0x040006, .lce, 3⟩] }) (fun t =>
      t.loopStack == [⟨0x040006, .lce, 3⟩] && t.lcntr == 0 && t.pc == 0x040111) = true := by decide +kernel
/-- The write holds a word that LADDR does not already read as (log 18). -/
theorem test_laddr_write_held (v : Word) (s : State) (h : v ≠ s.laddrRead) : (loadLaddr v s).laddr = v := if_neg h
/-- The clause of a register moved to itself, LADDR, whatever it reads as. -/
theorem witness_MoveUregResult_laddr :
    Ready start ∧ ReservedClear start ∧ UReg.laddr.readable = true ∧ UReg.laddr ≠ .mode1 ∧ ∀ n, UReg.laddr ≠ .b n :=
  ⟨by decide, ⟨by decide, by decide, fun _ h => (nomatch h), by decide, by decide, by decide, by decide⟩, by decide, by decide,
    fun n h => (nomatch h)⟩
/-- The clause of a register moved to itself, in the handler of an interrupt of LIRPTL. -/
theorem witness_MoveUregResult_self :
    let s : State := { serving .lp0i with lirptl := 0x000F000F }
    Ready s ∧ ReservedClear s ∧ UReg.lirptl.readable = true ∧ UReg.lirptl ≠ .mode1 ∧
      ∀ n, UReg.lirptl ≠ .b n :=
  ⟨by decide, ⟨by decide, by decide, fun _ h => (nomatch h), by decide, by decide, by decide, by decide⟩, by decide, by decide,
    fun n h => (nomatch h)⟩
theorem witness_MoveUregResult_refused :
    (15 : DReg) ∈ (Compute.double 0 0 15).dests ∧ (0 : DReg) ∈ (Compute.multi 0 0x8001).dests := by decide
theorem witness_ShiftMoveResult :
    let s := withWord 0x050007 1 (setM 8 8 (circ 8 0x050000 8 0x050007))
    Ready s ∧ truth s .always = true ∧ IndexOk s (dagIndex .pm 0) (s.getM (dagIndex .pm 0)) ∧
      Admits s .pm (s.postAddr (dagIndex .pm 0)) ∧ Holds s .pm (s.postAddr (dagIndex .pm 0)) 1 := by decide +kernel
theorem witness_ShiftMoveResult_refused : (15 : DReg) ∈ (Compute.single 0 15).dests := by decide
theorem witness_ModifyResult :
    let s := setM 7 0xFFFFFFF8 (circ 7 0x050000 8 0x050000)
    Ready s ∧ truth s .always = true ∧ IndexOk s 7 (s.getM 7) ∧ IndexOk s 7 8 := by decide +kernel
theorem witness_DualMoveResult :
    let s := withWord 0x060000 9 (setI 0 0x050000 (setI 8 0x060000 start))
    let a1 := s.postAddr (dagIndex .dm 0)
    let a2 := s.postAddr (dagIndex .pm 0)
    Ready s ∧ IndexOk s (dagIndex .dm 0) (s.getM (dagIndex .dm 0)) ∧ IndexOk s (dagIndex .pm 0) (s.getM (dagIndex .pm 0)) ∧
      (a1 = a2 → Dir.store = .load ∧ Dir.load = .load) ∧ MoveFits .store s .dm a1 0 ∧
      MoveFits .load (moveStored .store a1 (dataRead s 1) s) .pm a2 9 :=
  ⟨by decide, by decide, by decide, by decide +kernel, ⟨fun _ => by decide +kernel, fun h => (nomatch h)⟩,
    ⟨fun h => (nomatch h), fun _ => by decide +kernel⟩⟩
/-- Vector A25: the clause that stops. -/
theorem witness_DualMoveResult_conflict :
    let s := setI 0 0x050000 (setI 8 0x050000 start)
    Ready s ∧ IndexOk s (dagIndex .dm 0) (s.getM (dagIndex .dm 0)) ∧ IndexOk s (dagIndex .pm 0) (s.getM (dagIndex .pm 0)) ∧
      s.postAddr (dagIndex .dm 0) = s.postAddr (dagIndex .pm 0) := by decide +kernel
theorem witness_DualMoveResult_refused : (4 : DReg) ∈ (Compute.double 0 0 4).dests ∧ Dir.load = .load := by decide
theorem witness_ImmediateMoveResult :
    let s := withWord 0xFFFFFFFF 3 (setM 3 8 (circ 0 0x050000 8 0x050007))
    Ready s ∧ (UReg.imask.readable = true ∧ Admits s .dm 0xFFFFFFFF) ∧
      (Holds s .dm 0xFFFFFFFF 3 ∧ writable (.r 0) 3 s = true) ∧ Admits s .dm (s.preModify (dagIndex .dm 0) 0xFFFFFFFF) ∧
      Holds s .dm (s.preModify (dagIndex .dm 1) 0xFFFFFFFF) 3 ∧
      (IndexOk s (dagIndex .dm 0) (s.getM (dagIndex .dm 3)) ∧ Admits s .dm (s.postAddr (dagIndex .dm 0))) :=
  by decide +kernel
theorem witness_ImmediateMoveResult_stops :
    let s : State := { start with memMap := [⟨0, 0xFFFFFFFE, .data, true, true⟩] }
    Ready s ∧ (UReg.r 0).readable = true ∧ s.holdsCode 0xFFFFFFFF = false ∧ s.kindAt .pm 0xFFFFFFFF = none := by decide
theorem witness_ImmediateMoveResult_refused : (UReg.i 7).ofDag .dm = true ∧ (UReg.m 8).ofDag .pm = true := by decide
theorem witness_LoadImmediateResult :
    Ready start ∧ writable .mode1 0x01E7FCFF start = true ∧ writable .mode2 0x003F8037 start = true ∧
      writable .lirptl 0x000F000F start = true ∧ writable .irptl 0x7FFFFDFC start = true ∧
      writable .imask 0x7FFFFDFF start = true := by decide
theorem witness_BaseWriteSetsIndex :
    Ready start ∧ altDag start 0 = false ∧ altDag (inMode 0x10 start) 3 = true ∧ altDag (inMode 0x10 start) 4 = false ∧
      Ready (inMode 0x10 start) ∧ (15 : Fin 16) ≠ 0 := by decide
theorem witness_BitrevResult : Ready inSlot ∧ (0 : Nat) < 32 ∧ 31 < 32 := by decide
theorem witness_JumpResult :
    (ReadyToJump false true start ∧ truth start .always = true ∧ ModifiersOk false false start) ∧
      (ReadyToJump true false (atEnd 1) ∧ ModifiersOk true false (atEnd 1)) ∧
      (ReadyToJump false false (serving .sp0i) ∧ ModifiersOk false true (serving .sp0i)) :=
  ⟨⟨by decide, by decide, by decide⟩, ⟨by decide, by decide⟩, ⟨by decide, by decide⟩⟩
theorem witness_JumpResult_retag : ∀ e ∈ [(⟨0, .loop⟩ : PcEntry)], e.tag ≠ .interrupt := by decide
theorem witness_CallResult :
    let s : State := { start with pcStack := List.replicate 29 ⟨0, .call⟩ }
    ReadyToBranch s ∧ truth s .always = true ∧ s.pcStack.length < 30 ∧ truth s .tf = false := by decide
theorem witness_JumpClauseResult :
    let s := setI 8 0x00FFFFFF (atEnd 1)
    ReadyToJump true false s ∧ ModifiersOk true false s ∧ TargetOk s 0 0 ∧ truth s .always = true ∧
      truth s .tf = false ∧ clausePart (.withCompute (.single 1 0)) true ≠ clausePart (.withCompute (.single 1 0)) false ∧
      clausePart (.elseCompute (.single 1 0)) true ≠ clausePart (.elseCompute (.single 1 0)) false := by decide +kernel
theorem witness_CallClauseResult :
    let s : State := setI 9 0x00FFFFFF { start with pcStack := List.replicate 29 ⟨0, .call⟩ }
    ReadyToBranch s ∧ truth s .always = true ∧ s.pcStack.length < 30 ∧ TargetOk s 0 1 ∧ truth s .tf = false := by
  decide +kernel
theorem witness_JumpElseMoveResult :
    let s := withWord 0x050007 1 (setM 0 8 (circ 0 0x050000 8 0x050007))
    ReadyToBranch s ∧ truth s .tf = false ∧ IndexOk s (dagIndex .dm 0) (s.getM (dagIndex .dm 0)) ∧
      MoveFits .load s .dm (s.postAddr (dagIndex .dm 0)) 1 ∧ MoveFits .store s .dm (s.postAddr (dagIndex .dm 0)) 0 ∧
      TargetOk s 0 0 ∧ truth s .always = true :=
  ⟨by decide +kernel, by decide +kernel, by decide +kernel, by decide +kernel, by decide +kernel, by decide +kernel,
    by decide +kernel⟩
theorem witness_JumpElseMoveResult_refused : Dir.load = .load ∧ 15 ∈ (Compute.single 0 15).dests := by decide
theorem witness_RtsResult :
    let s : State := { start with pcStack := [⟨0xFFFFFF, .call⟩] }
    ReadyToBranch s ∧ truth s .always = true ∧ s.pcStack.head? = some ⟨0xFFFFFF, .call⟩ ∧ truth s .tf = false := by decide
theorem witness_RtiResult :
    let s : State := { serving .tmzhi with statusStack := [⟨0x01E7FCFF, 5⟩] }
    (ReadyToBranch (serving .sp0i) ∧ CanReturn (serving .sp0i) .sp0i 0x040105) ∧
      (ReadyToBranch s ∧ CanReturn s .tmzhi 0x040105) ∧ truth s .tf = false :=
  ⟨⟨by decide, by decide, by decide, by decide⟩, ⟨by decide, by decide, by decide, fun _ => ⟨_, rfl, by decide⟩⟩, by decide⟩
theorem witness_DelayedBranchRunsTwoSlots :
    (atEnd 1).dly = none ∧ ¬ EndsLoop { atEnd 1 with pc := (atEnd 1).pc + 1 } ∧
      ¬ EndsLoop { atEnd 1 with pc := (atEnd 1).pc + 2 } := by decide
theorem witness_LoopStartResult :
    let s : State := { setR 3 1 start with
      pcStack := List.replicate 29 ⟨0, .loop⟩, loopStack := List.replicate 5 ⟨0xFFFFFF, .always, 0⟩ }
    ReadyToBranch s ∧ LoopFits s (loopEndOf s (.absolute 0xFFFFFE)) ∧ LoopFits s (loopEndOf s (.relative 1)) ∧
      (0xFFFF : BitVec 16) ≠ 0 ∧ (UReg.r 3).readable = true ∧ uregRead s (.r 3) ≠ 0 := by decide +kernel
theorem witness_LoopRunsItsCount :
    (atEnd 2).loopStack = [⟨0x040110, .lce, 2⟩] ∧ (atEnd 2).pcStack = [⟨0x04010E, .loop⟩] ∧ (atEnd 2).dly = none ∧
      (2 : Word) ≠ 0 ∧ 0 < 1 ∧ 1 < (2 : Word).toNat ∧ (⟨0x040110, .always, 0⟩ : LoopEntry).term = .always ∧
      CondCode.tf ≠ .lce ∧ CondCode.tf ≠ .always := by decide
theorem witness_BitChangeResult :
    Ready start ∧ SReg.mode1.admitted = true ∧ changeable .mode1 (sregHeld start .mode1 ||| 0x01E7FCFF) start = true ∧
      changeable .imask (sregHeld start .imask &&& ~~~0xFFFFFFFC) start = true ∧
      changeable .lirptl (sregHeld start .lirptl ^^^ 0x000F000F) start = true := by decide
theorem witness_BitChangeResult_refused : SReg.flags.admitted = false := by decide
theorem witness_BitTestResult : Ready inSlot ∧ SReg.imask.admitted = true := by decide
theorem witness_StatusStackResult :
    let s : State := { start with statusStack := List.replicate 14 ⟨0x01E7FCFF, 0⟩ }
    ReadyOutside s ∧ s.statusStack.length < 15 ∧ (∀ d ∈ s.dly, d.byRti = true) ∧
      s.statusStack.head? = some ⟨0x01E7FCFF, 0⟩ ∧ (0x01E7FCFF : Word) &&& 0xFE180300 = 0 := by decide
theorem witness_StatusStackResult_slot :
    let s : State := { start with dly := some ⟨.two, 0x040105, true⟩, statusStack := [⟨0, 0⟩] }
    Ready s ∧ (∀ d ∈ s.dly, d.byRti = true) ∧ s.statusStack.head? = some ⟨0, 0⟩ := by decide
/-- The clauses that stop: a push on 15 entries, a pop of an entry with a reserved bit, a pop of none. -/
theorem witness_StatusStackResult_stops :
    let s : State := { start with statusStack := List.replicate 15 ⟨0x00000100, 0⟩ }
    ReadyOutside s ∧ 15 ≤ s.statusStack.length ∧ (∀ d ∈ s.dly, d.byRti = true) ∧
      s.statusStack.head? = some ⟨0x00000100, 0⟩ ∧ (0x00000100 : Word) &&& 0xFE180300 ≠ 0 ∧
      Ready start ∧ start.statusStack = [] := by decide
theorem witness_IndexUpdateResult :
    IndexOk (circ 7 0x050000 4 0x050003) 7 0xFFFFFFFC ∧ ¬ IndexOk (circ 7 0x050000 4 0x050004) 7 0 ∧
      ¬ IndexOk (circ 7 0x050000 4 0x050003) 7 5 := by decide +kernel
theorem witness_CircularUpdateStaysInBuffer :
    let s := circ 7 0xFFFFFFF0 16 0xFFFFFFFF
    circularOn s 7 = true ∧ (s.getB 7).toNat + (s.getL 7).toNat ≤ 2 ^ 32 ∧
      onNext (modifyIndex 7 16 s) (fun t => t.getI 7 == 0xFFFFFFFF) = true ∧
      onNext (modifyIndex 7 1 s) (fun t => t.getI 7 == 0xFFFFFFF0) = true := by decide +kernel
theorem witness_CircularWorkedExample :
    let s := circ 0 0 11 0
    s.mode1Act.getLsbD 24 = true ∧ s.getL 0 = 11 ∧ s.getB 0 = 0 ∧ s.getI 0 = 0 := by decide +kernel
theorem witness_BitReversedAddress :
    (0 : Fin 16).val = 0 ∧ (inMode 2 start).mode1Act.getLsbD 1 = true ∧ (8 : Fin 16).val = 8 ∧
      (inMode 1 start).mode1Act.getLsbD 0 = true ∧
      ¬ ((1 : Fin 16).val = 0 ∧ (inMode 3 start).mode1Act.getLsbD 1 = true ∨
        (1 : Fin 16).val = 8 ∧ (inMode 3 start).mode1Act.getLsbD 0 = true) := by
  decide
theorem witness_WordReadsBack : (0xFFFFFFFF : Word) ≠ 0 := by decide
theorem witness_MemoryIsExtensional :
    Memory.wf [(0, 1), (0x3FFFFFFFF, 2)] = true ∧ Memory.wf (Memory.write [(0, 1)] 0x3FFFFFFFF 2) = true ∧
      Memory.write [(0, 1)] 0x3FFFFFFFF 2 = [(0, 1), (0x3FFFFFFFF, 2)] := by decide +kernel
theorem witness_DataAccessOutcome :
    Admits start .dm 0xFFFFFFFF ∧ Holds (withWord 0 7 start) .pm 0 7 ∧
      (placeCode 0x040110 0x97 start).holdsCode 0x040110 = true ∧
      (start.holdsCode 0 = false ∧ ({ start with memMap := [] } : State).kindAt .dm 0 = none) ∧
      (start.kindAt .dm 0 = some .data ∧ Memory.readWord start.mem 0 = none) ∧
      ({ start with memMap := [⟨0, 0, .device, true, false⟩] } : State).kindAt .dm 0 = some .device ∧
      ({ start with memMap := [⟨0, 0, .served, true, false⟩] } : State).kindAt .dm 0 = some .served ∧
      ({ start with memMap := [⟨0, 0, .ioflag, true, false⟩] } : State).kindAt .dm 0 = some .ioflag ∧
      Admits start .pm 0xFFFFFFFF := by decide +kernel
/-- The clauses on code words and on the regions of MemMap, where they meet. -/
theorem witness_DataAccessOutcome_code :
    let s := placeCode 0xFFFFFF 0x97 start
    let t : State := { start with memMap := [⟨0, 1, .device, true, false⟩, ⟨1, 2, .data, true, true⟩] }
    (s.codeBytes 0xFFFFFF).isSome = true ∧ 2 ^ 24 ≤ (0x01000000 : Word).toNat ∧
      (t.memMap = [⟨0, 1, .device, true, false⟩] ++ ⟨1, 2, .data, true, true⟩ :: [] ∧
        Covers ⟨1, 2, .data, true, true⟩ 2 ∧ ∀ q ∈ [(⟨0, 1, .device, true, false⟩ : Region)], ¬ Covers q 2) ∧
      (∀ r ∈ t.memMap, ¬ Covers r 3) ∧ t.kindAt .dm 2 = some .data ∧ t.kindAt .pm 2 = some .data :=
  ⟨by decide +kernel, by decide, ⟨rfl, by decide, by decide⟩, by decide, by decide, by decide⟩
/-- One map for both buses (20_memory R61): a later region does not give an address another kind on the other bus. -/
theorem test_kindAt_one_map :
    let s : State := { start with memMap := [⟨0, 1, .device, true, false⟩, ⟨1, 2, .data, true, true⟩] }
    s.kindAt .dm 1 = some .device ∧ s.kindAt .pm 1 = none := by decide
/-- An unwritten `shared` word is one word on both buses (20_memory R61, R76). -/
theorem witness_DataAccessOutcome_bothBuses :
    let s : State := { start with memMap := [⟨0, 0xFFFFFFFF, .shared, true, true⟩] }
    Admits s .dm 0 ∧ Admits s .pm 0 ∧ Memory.readWord s.mem 0 = none := by decide
theorem witness_TakenInterruptIsHighest :
    MayTake tmzhiDue .tmzhi ∧ ¬ MayTake tmzhiDue .emui ∧
      (∃ k, k ≠ Interrupt.tmzhi ∧ MayTake { tmzhiDue with irptl := 0x50, imask := 0x53 } k) ∧
      MayTake { tmzhiDue with isrv := [.sft3i], mode1 := 0x00001800 } .tmzhi ∧
      MayTake { inMode 0x00001000 start with imask := 0x00004003, lirptl := 0x00080008 } .spiti :=
  ⟨by decide, by decide, ⟨.irq2i, by decide, by decide⟩, by decide, by decide⟩
theorem witness_InterruptEntryEffect :
    let s : State := { tmzhiDue with
      pcStack := List.replicate 29 ⟨0, .call⟩, statusStack := List.replicate 14 ⟨0, 0⟩ }
    s.pcStack.length < 30 ∧ s.statusStack.length < 15 := by decide
/-- The clauses that stop. -/
theorem witness_InterruptEntryEffect_stops :
    let s : State := { tmzhiDue with statusStack := List.replicate 15 ⟨0, 0⟩ }
    30 ≤ ({ tmzhiDue with pcStack := List.replicate 30 ⟨0, .call⟩ } : State).pcStack.length ∧
      s.pcStack.length < 30 ∧ Interrupt.tmzhi ∈ statusInterrupts ∧ 15 ≤ s.statusStack.length := by decide
theorem witness_EntryThenReturnRestores :
    (∃ t, takeInterrupt .tmzhi tmzhiDue = .next t ∧ ¬ InTail t) ∧ Sisd tmzhiDue ∧ tmzhiDue.dly = none ∧
      tmzhiDue.mode1Act = tmzhiDue.mode1 ∧ tmzhiDue.mode1 &&& 0xFE180300 = 0 :=
  ⟨⟨_, rfl, by decide⟩, by decide, by decide, by decide, by decide⟩
theorem witness_IdleWaitsForInterrupt :
    let s : State := { start with idle := true }
    let due : State := { tmzhiDue with idle := true }
    s.idle = true ∧ (agents s).takeable = none ∧ due.idle = true ∧ (agents due).takeable = some .tmzhi := by decide +kernel
theorem witness_StepRunsDecoded :
    let s := placeCode 0x040110 0x97 start
    s.codeBytes s.pc = some [0x97, 0, 0, 0, 0, 0] ∧ decodeBytes [0x97, 0, 0, 0, 0, 0] = .ok (.nop, []) ∧ s.idle = false ∧
      (agents s).takeable = none ∧ s.mode1Wrote = false ∧ ({ s with mode1Wrote := true } : State).mode1Wrote = true :=
  ⟨by decide +kernel, rfl, by decide, by decide +kernel, by decide, by decide⟩
theorem witness_StepRunsDecoded_word : Instr.nop.WellFormed ∧ (0 : PAddr) ≠ start.pc := by decide

/-- A takeable interrupt that still waits. -/
theorem witness_StepRunsDecoded_waiting :
    let s : State := { tmzhiDue with irqWait := some 1 }
    s.idle = false ∧ NoneTaken (agents s) (some 0) :=
  ⟨by decide, .inr ⟨.tmzhi, 0, by decide +kernel, .inl (by decide +kernel), rfl⟩⟩
/-- A takeable interrupt whose wait is over. -/
theorem witness_StepRunsDecoded_taken :
    let s : State := { tmzhiDue with irqWait := some 0 }
    s.idle = false ∧ (agents s).takeable = some .tmzhi ∧ WaitLeft (agents s) 0 :=
  ⟨by decide, by decide +kernel, .inl (by decide +kernel)⟩
/-- The fetches that stop: no instruction, and a number that is no term's. -/
theorem witness_StepRunsDecoded_stops :
    let s := placeCode 0x040110 0xFFFFFFFFFFFF start
    start.codeBytes start.pc = none ∧ (agents start).takeable = none ∧
      s.codeBytes s.pc = some [0xFF, 0xFF, 0xFF, 0xFF, 0xFF, 0xFF] ∧
      (∃ e, decodeBytes [0xFF, 0xFF, 0xFF, 0xFF, 0xFF, 0xFF] = .error e) ∧ (agents s).takeable = none :=
  ⟨by decide +kernel, by decide +kernel, by decide +kernel, ⟨_, rfl⟩, by decide +kernel⟩
theorem witness_ModeLatency :
    let s : State := { start with mode1 := 0x10, mode1Wrote := true }
    let old := fun i => exec i { s with mode1Wrote := false }
    let new := fun i => exec i { s with mode1Wrote := false, mode1Act := s.mode1 }
    s.mode1Wrote = true ∧
      onNext (new .nop) (fun b => onNext (old .nop) fun a => decide (a = { b with mode1Act := s.mode1Act })) = true ∧
      onNext (new (.modifyImm 0 1)) (fun b => onNext (old (.modifyImm 0 1)) fun a =>
        decide ({ a with mode1Act := s.mode1 } ≠ b)) = true := by decide +kernel
/-- The clauses with a stop: under the new value alone, alike under both, and differently under both. -/
theorem witness_ModeLatency_stops :
    let s : State := { start with mode1 := 0x00200000, mode1Wrote := true }
    let old := fun (s : State) i => exec i { s with mode1Wrote := false }
    let new := fun (s : State) i => exec i { s with mode1Wrote := false, mode1Act := s.mode1 }
    onNext (old s .nop) (fun _ => true) = true ∧ refuses (new s .nop) .simdMode = true ∧
      stops (old s .popSts) .statusStackUnderflow = true ∧ refuses (new s .popSts) .simdMode = true ∧
      stops (old { s with mode1 := 0 } .popSts) .statusStackUnderflow = true ∧
      stops (new { s with mode1 := 0 } .popSts) .statusStackUnderflow = true := by decide +kernel
theorem witness_TimerCountsAndReloads :
    ({ start with mode2 := 0x20 } : State).mode2.getLsbD 5 = true ∧ start.mode2.getLsbD 5 = false ∧ 0 ≤ start.tcount.toNat := by decide
theorem witness_EnvironmentFrame :
    let s : State := { start with
      memMap := [⟨0, 2, .shared, true, false⟩]
      env := [{ latches := [.irq0, .spit], writes := [(0, 1), (0, 2), (1, 3)], pins := some 3 }] }
    start.env = [] ∧ start.sharedAt 0 = false ∧ s.sharedAt 0 = true ∧
      (∃ mv rest, s.env = mv :: rest ∧ mv.writes = [(0, 1)] ++ (0, 2) :: [(1, 3)]) ∧
      (∀ w ∈ ([(1, 3)] : List (Word × Word)), w.1 ≠ 0) ∧
      (∀ w ∈ ([(0, 1), (0, 2), (1, 3)] : List (Word × Word)), w.1 ≠ 2) ∧ s.sharedAt 2 = true :=
  ⟨rfl, by decide +kernel, by decide +kernel, ⟨_, _, rfl, rfl⟩, fun w h => by rw [List.mem_singleton.mp h]; decide,
    fun w h => by fin_cases h <;> decide, by decide +kernel⟩
theorem witness_MemoryFrame :
    (∃ t, exec .nop start = .next t) ∧ storedWords .nop start = [] ∧
      (∃ t, exec (.storeDirect .dm 0xFFFFFFFF (.r 0)) start = .next t) ∧
      storedWords (.storeDirect .dm 0xFFFFFFFF (.r 0)) start = [0xFFFFFFFF] ∧
      Outside (wordCell 0xFFFFFFFF - 1) [0xFFFFFFFF] :=
  ⟨⟨_, rfl⟩, rfl, ⟨_, rfl⟩, rfl, fun a h => by rw [List.mem_singleton.mp h]; decide⟩
theorem witness_MemoryFrame_outside : Outside (wordCell 0 + 4) [0] :=
  fun a h => by rw [List.mem_singleton.mp h]; decide
theorem witness_DataRegisterFrame :
    (∃ t, exec (.loadImm (.r 7) 1) (inMode 0x80 start) = .next t) ∧ 15 ∉ dregsWritten (.loadImm (.r 7) 1) ∧
      altData (inMode 0x80 start) 15 = true ∧ altData (inMode 0x80 start) 7 = false :=
  ⟨⟨_, rfl⟩, by decide, by decide, by decide⟩
theorem witness_DagRegisterFrame :
    (∃ t, exec (.loadImm (.b 3) 1) (inMode 0x10 start) = .next t) ∧ 4 ∉ dagWritten (.loadImm (.b 3) 1) ∧
      altDag (inMode 0x10 start) 3 = true ∧ altDag (inMode 0x10 start) 4 = false :=
  ⟨⟨_, rfl⟩, by decide, by decide, by decide⟩
theorem witness_SystemRegisterFrame :
    let i := Instr.storeDirect .dm 0 (.r 0)
    (∃ t, exec i start = .next t) ∧ uregDest i = none ∧ ofStatusStack i = false ∧ ofBitTest i = false ∧ operations i = [] ∧
      barredFromSlots i = false ∧ ¬ EndsInnermost start ∧ altMr start = false ∧ altMr (inMode 4 start) = true :=
  ⟨⟨_, rfl⟩, rfl, rfl, rfl, rfl, rfl, by decide, by decide, by decide⟩
/-- A mixed selection (SRRFL and SRD2H alone): the other contents are in the copies that it does not select. -/
theorem test_withUnselected_mixed :
    let s := inMode 0x00000420 start
    let t := withUnselected (Vector.replicate 16 7) s.dag 7 s
    t.regs[7] = 7 ∧ t.regsAlt[7] = 0 ∧ t.regs[8] = 0 ∧ t.regsAlt[8] = 7 ∧ t.mr = 0 ∧ t.mrAlt = 7 := by decide +kernel
theorem witness_AlternateRegistersIsolated :
    onNext (exec (.loadImm (.r 7) 1) (inMode 0x00000420 start)) (fun t => t.regsAlt[7] == 1) = true := by decide +kernel
theorem witness_ProgramTextFixed : onNext (step (placeCode 0x040110 0x97 start)) (fun _ => true) = true := by decide +kernel
theorem witness_MemoryStaysCanonical :
    MemoryCanonical (placeCode 0x040110 0x97 (withWord 0 1 start)) ∧
      onNext (step (placeCode 0x040110 0x97 (withWord 0 1 start))) (fun _ => true) = true := by decide +kernel
theorem witness_SequencerInvariantKept :
    SequencerInv (placeCode 0x040110 0x97 (atEnd 2)) ∧
      onNext (step (placeCode 0x040110 0x97 (atEnd 2))) (fun _ => true) = true := by
  refine ⟨⟨by decide, by decide, by decide, fun e he => ?_⟩, by decide +kernel⟩
  have : e = ⟨0x040110, .lce, 2⟩ := by simpa [placeCode, atEnd] using he
  subst this
  decide
theorem witness_ControlInvariantKept :
    ControlInv (placeCode 0x040110 0x97 start) ∧
      onNext (step (placeCode 0x040110 0x97 start)) (fun _ => true) = true :=
  ⟨⟨⟨by decide, by decide, fun _ h => (nomatch h), by decide, by decide, by decide, by decide⟩, by decide, by decide, by decide⟩,
    by decide +kernel⟩
theorem witness_PlacementRules :
    (inMode 0x00200000 start).mode1Act &&& 0x00E00000 ≠ 0 ∧ Sisd inSlot ∧ inSlot.dly = some ⟨.two, 0x040180, false⟩ ∧
      barredFromSlots .idle = true ∧ EndsLoop { atEnd 1 with dly := some ⟨.one, 0, false⟩ } ∧
      Sisd (atEnd 1) ∧ (atEnd 1).dly = none ∧ InTail (atEnd 1) ∧
      barredFromTail (.jumpDirect .always 0 true true false) = true := by decide +kernel
/-- The enclosing loop: its end stands below an inner loop's on the stack, as after a jump out of the inner one. -/
theorem witness_PlacementRules_enclosing :
    let s : State := { start with loopStack := [⟨0x040100, .always, 0⟩, ⟨0x040112, .always, 0⟩] }
    InTail s ∧ barredFromTail (.callDirect .always 0 false) = true ∧ EndsLoop { s with pc := 0x040112 } ∧
      ¬ InTail { s with pc := 0x04010F } := by decide +kernel
theorem witness_BranchStops :
    ReadyToBranch start ∧ truth start .always = true ∧ (∀ e ∈ start.pcStack.head?, e.tag ≠ .call) ∧ start.isrv = [] ∧
      TargetOk start 0 0 ∧ 30 ≤ ({ start with pcStack := List.replicate 30 ⟨0, .call⟩ } : State).pcStack.length ∧
      ReadyToBranch (inMode 1 start) ∧ (inMode 1 start).mode1Act.getLsbD 0 = true ∧
      ((1 : Fin 8).val = 0 → start.mode1Act.getLsbD 0 = false) ∧
      2 ^ 24 ≤ ((setI 9 0x01000000 start).getI (dagIndex .pm 1) + (setI 9 0x01000000 start).getM (dagIndex .pm 0)).toNat := by
  decide +kernel
theorem witness_BranchStops_rti :
    let s : State := { serving .tmzhi with statusStack := [⟨0x80000000, 0⟩] }
    ReadyToBranch s ∧ (∃ n ∈ s.isrv.head?, n ∈ statusInterrupts) ∧ s.pcStack.head?.map (·.tag) = some .interrupt ∧
      (∃ e ∈ s.statusStack.head?, e.mode1 &&& 0xFE180300 ≠ 0) ∧ (serving .tmzhi).statusStack = [] ∧
      (∀ e ∈ ({ s with pcStack := [⟨0, .loop⟩] } : State).pcStack.head?, e.tag ≠ .interrupt) ∧ s.isrv ≠ [] :=
  ⟨by decide, ⟨_, rfl, by decide⟩, by decide, ⟨_, rfl, by decide⟩, by decide, by decide, by decide⟩
theorem witness_BranchStops_modifiers :
    let s : State := { atEnd 1 with pcStack := [⟨0, .call⟩] }
    MayJump true true start ∧ start.loopStack = [] ∧ MayJump true false s ∧ s.loopStack ≠ [] ∧
      (∀ e ∈ s.pcStack.head?, e.tag ≠ .loop) ∧ MayJump false true start ∧ start.isrv = [] := by decide
theorem witness_LoopStops :
    let full : State := { start with loopStack := List.replicate 6 ⟨0x040113, .always, 0⟩ }
    let s : State := { start with pcStack := List.replicate 30 ⟨0, .call⟩ }
    ReadyToBranch start ∧ (1 : BitVec 16) ≠ 0 ∧ (UReg.r 0).readable = true ∧ uregRead start (.r 0) = 0 ∧
      uregRead start .imask ≠ 0 ∧ ¬ (start.pc + 1).toNat ≤ (loopEndOf start (.relative 0)).toNat ∧
      ReadyToBranch full ∧ (full.pc + 1).toNat ≤ (loopEndOf full (.absolute 0x040113)).toNat ∧
      ¬ (∀ outer ∈ full.loopStack.head?, (0x040113 : PAddr).toNat < outer.endAddr.toNat) ∧
      (∀ outer ∈ full.loopStack.head?, (loopEndOf full (.relative 2)).toNat < outer.endAddr.toNat) ∧
      full.pcStack.length < 30 ∧ 6 ≤ full.loopStack.length ∧ ReadyToBranch s ∧ 30 ≤ s.pcStack.length ∧
      (∀ outer ∈ s.loopStack.head?, (0 : PAddr).toNat < outer.endAddr.toNat) := by decide
theorem witness_ReservedBitsRefused :
    let s := withWord 0 0x00000200 (setI 0 0 start)
    Ready s ∧ SReg.mode1.admitted = true ∧ refusedChange .mode1 (sregHeld s .mode1 ||| 0x00000100) s = true ∧
      refusedChange .irptl (sregHeld { s with irptl := 0x200 } .irptl &&& ~~~0x00000200) { s with irptl := 0x200 } = true ∧
      refusedChange .lirptl (sregHeld s .lirptl ^^^ 0x01000000) s = true ∧ refusedWrite .imask 0x80000000 s = true ∧
      refusedWrite .mode1 0x00000200 s = true ∧ Holds s .dm 0 0x00000200 ∧ (UReg.r 1).readable = true ∧
      uregRead (setR 1 0x40 s) (.r 1) = 0x40 ∧ refusedWrite .mode2 0x40 s = true ∧
      IndexOk s (dagIndex .dm 0) (s.getM (dagIndex .dm 0)) ∧ Holds s .dm (s.postAddr (dagIndex .dm 0)) 0x00000200 ∧
      Holds s .dm (s.preModify (dagIndex .dm 0) (s.getM (dagIndex .dm 0))) 0x00000200 ∧
      Holds s .dm (s.preModify (dagIndex .dm 1) 0) 0x00000200 := by decide +kernel
theorem witness_ResetValues : (State.resetIn true).pc = 0x200005 ∧ State.reset.pc = 0x040005 := by decide

/-! ### The review's points: places where a wrong reading would still compile -/

/-- After a jump out of an inner loop that is still on the stack, a `CALL` in the enclosing loop's tail is refused
(43_program_flow R220). -/
theorem test_callDirect_in_enclosing_tail :
    refuses (exec (.callDirect .always 0x040200 false)
      { start with loopStack := [⟨0x040100, .always, 0⟩, ⟨0x040112, .always, 0⟩] }) .branchAtLoopEnd = true := by
  decide +kernel
/-- A core that idles at an end address ends no run (70_reset R323). -/
theorem test_atEnd_idle :
    AtEnd [0x040110] start ∧ ¬ AtEnd [0x040110] { start with idle := true } := by decide

end Sys2Proof.Tests
end

section
/-! SUPPORT. What the stack operations, the register writes and the operations of an instruction answer: an equation, or the
cases in which they answer a next state. -/

namespace Sys2Proof.Machine
open Sys2Proof.Safety

/-! ### The PC and loop stacks -/

theorem ite_fault_eq_next {c : Prop} [Decidable c] {r : Fault} {s t : State} :
    (if c then .fault r else .next s : Result) = .next t ↔ ¬ c ∧ t = s := by
  by_cases h : c <;> simp [h, eq_comm]

theorem pushPc_eq (a : PAddr) (tag : PcTag) (s : State) :
    pushPc a tag s = if 30 ≤ s.pcStack.length then .fault .pcStackOverflow else .next (pcPushed a tag s) := by
  have hd : Config.pcStackDepth = 30 := rfl
  unfold pushPc pcPushed
  rw [hd]
  split
  · rfl
  · by_cases hf : s.pcStack.length = 29
    · have hl : s.lirptl ||| Interrupt.lirptlBit .sovfi = s.lirptl := BitVec.or_zero
      rw [if_pos (by omega), if_pos hf, latch, hl]
      rfl
    · rw [if_neg (by omega), if_neg hf]

theorem pushPc_eq_next {a : PAddr} {tag : PcTag} {s t : State} :
    pushPc a tag s = .next t ↔ s.pcStack.length < 30 ∧ t = pcPushed a tag s := by
  rw [pushPc_eq, ite_fault_eq_next, Nat.not_le]

theorem popPc_eq_next {tag : PcTag} {s t : State} {a : PAddr} :
    popPc tag s = .next (a, t) ↔ ∃ rest, s.pcStack = ⟨a, tag⟩ :: rest ∧ t = { s with pcStack := rest } := by
  unfold popPc
  cases s.pcStack with
  | nil => simp
  | cons e rest =>
    obtain ⟨addr, etag⟩ := e
    by_cases ht : etag = tag
    · simp [ht, eq_comm]
    · simp [ht]

theorem pushLoop_eq_next {e : LoopEntry} {s t : State} :
    pushLoop e s = .next t ↔ s.loopStack.length < 6 ∧ t = { s with loopStack := e :: s.loopStack } := by
  have hd : Config.loopStackDepth = 6 := rfl
  unfold pushLoop
  rw [hd, ite_fault_eq_next, Nat.not_le]

/-- A `DO` that starts its loop (43_program_flow R216): the loop ends before the one around it, both stacks have room. -/
theorem startLoop_eq_next {e : PAddr} {term : CondCode} {n : Word} {s t : State} (h : startLoop e term n s = .next t) :
    (∀ outer ∈ s.loopStack.head?, e.toNat < outer.endAddr.toNat) ∧ s.pcStack.length < 30 ∧ s.loopStack.length < 6 ∧
      t = loopPushed e term n s := by
  unfold startLoop at h
  split at h
  · cases h
  · split at h
    · cases h
    · rename_i hn
      obtain ⟨s1, hp, hl⟩ := andThen_eq_next.1 h
      obtain ⟨hpc, rfl⟩ := pushPc_eq_next.1 hp
      obtain ⟨hloop, rfl⟩ := pushLoop_eq_next.1 hl
      refine ⟨fun outer ho => ?_, hpc, hloop, rfl⟩
      by_contra hc
      exact hn (by simp [Option.mem_def.1 ho]; omega)

theorem abortLoop_eq_next {s t : State} (h : abortLoop s = .next t) :
    ∃ e loops a rest, s.loopStack = e :: loops ∧ s.pcStack = ⟨a, .loop⟩ :: rest ∧
      t = { s with loopStack := loops, pcStack := rest } := by
  unfold abortLoop at h
  split at h
  · cases h
  · rename_i e loops hl
    obtain ⟨⟨a, s1⟩, hp, ht⟩ := andThen_eq_next.1 h
    obtain ⟨rest, hr, rfl⟩ := popPc_eq_next.1 hp
    cases ht
    exact ⟨e, loops, a, rest, hl, hr, rfl⟩

theorem clearInterrupt_eq_next {s t : State} (h : clearInterrupt s = .next t) :
    ∃ n isrv, s.isrv = n :: isrv ∧ t = { s with isrv := isrv, pcStack := retagInterrupt s.pcStack } := by
  unfold clearInterrupt at h
  split at h
  · cases h
  · rename_i n isrv hi
    cases h
    exact ⟨n, isrv, hi, rfl⟩

/-! ### The status stack -/

theorem pushStatus_eq_next {s t : State} :
    pushStatus s = .next t ↔ s.statusStack.length < 15 ∧ t = statusPushed s := by
  have hd : Config.statusStackDepth = 15 := rfl
  unfold pushStatus
  rw [hd, ite_fault_eq_next, Nat.not_le]
  rfl

theorem popStatus_eq_next {s t : State} (h : popStatus s = .next t) :
    ∃ e rest, s.statusStack = e :: rest ∧ e.mode1 &&& 0xFE180300 = 0 ∧ t = statusPopped e s := by
  unfold popStatus at h
  split at h
  · cases h
  · rename_i e rest hs
    unfold loadMode1 at h
    split at h
    · rename_i hr
      cases h
      refine ⟨e, rest, hs, hr, ?_⟩
      simp only [statusPopped, hs, List.tail_cons]
      rfl
    · cases h

/-- `ReturnFromInterrupt()` (60_exceptions R270) pops the interrupt in service and its PC-stack entry, and for the six
interrupts that save it the status. -/
theorem returnFromInterrupt_eq_next {s t : State} {a : PAddr} (h : returnFromInterrupt s = .next (a, t)) :
    ∃ n isrv rest, s.isrv = n :: isrv ∧ s.pcStack = ⟨a, .interrupt⟩ :: rest ∧
      (t = { s with pcStack := rest, isrv := isrv } ∨ popStatus { s with pcStack := rest, isrv := isrv } = .next t) := by
  unfold returnFromInterrupt at h
  split at h
  · cases h
  · rename_i n isrv hi
    obtain ⟨⟨a1, s1⟩, hp, h⟩ := andThen_eq_next.1 h
    obtain ⟨rest, hr, rfl⟩ := popPc_eq_next.1 hp
    obtain ⟨s2, h2, ht⟩ := andThen_eq_next.1 h
    cases ht
    refine ⟨n, isrv, rest, hi, hr, ?_⟩
    split at h2
    · exact .inr h2
    · cases h2
      exact .inl rfl

/-- Interrupt entry (60_exceptions R263, R264): the latch cleared, the return address pushed, and for the six interrupts that
save it the status pushed. -/
theorem takeInterrupt_eq_next {n : Interrupt} {s t : State} (h : takeInterrupt n s = .next t) :
    s.pcStack.length < 30 ∧ ∃ u, (u = pcPushed s.pc .interrupt (unlatch n s) ∨
        s.statusStack.length < 15 ∧ u = statusPushed (pcPushed s.pc .interrupt (unlatch n s))) ∧
      t = { u with isrv := n :: s.isrv, idle := false, irqWait := none, pc := s.vector n } := by
  unfold takeInterrupt at h
  obtain ⟨s1, hp, h⟩ := andThen_eq_next.1 h
  obtain ⟨hpc, rfl⟩ := pushPc_eq_next.1 hp
  obtain ⟨s2, hs, ht⟩ := andThen_eq_next.1 h
  cases ht
  refine ⟨hpc, s2, ?_, ?_⟩
  · split at hs
    · exact .inr (pushStatus_eq_next.1 hs)
    · cases hs
      exact .inl rfl
  · split at hs
    · obtain ⟨_, rfl⟩ := pushStatus_eq_next.1 hs
      rfl
    · cases hs
      rfl

/-! ### Register writes -/

/-- A write of a universal register that succeeds is of a writable value, and writes what its rule says. -/
theorem writeUreg_eq_next {u : UReg} {v : Word} {s t : State} (h : writeUreg u v s = .next t) :
    writable u v s = true ∧ t = uregWritten u v s := by
  have hw : writable u v s = true := by
    cases u
    case mode1 | mode2 | irptl | imask =>
      simp only [writeUreg, loadMode1, loadMode2, loadIrptl, loadImask] at h
      split at h
      · rename_i hv
        simpa [writable, mode1Reserved, mode2Reserved] using hv
      · cases h
    case lirptl =>
      simp only [writeUreg, loadLirptl] at h
      split at h
      · rename_i hv
        simpa [writable, State.keepsPointers, State.readsPointers, lirptlRead_eq] using hv
      · cases h
    all_goals first | rfl | cases h
  rw [writeUreg_ok hw rfl rfl rfl (by simp)] at h
  cases h
  exact ⟨hw, rfl⟩

/-- `BIT SET`, `CLR` and `TGL` write what an instruction that writes the universal register of the name would. -/
theorem changeSreg_eq_next {r : SReg} {f : Word → Word} {s t : State} (h : changeSreg r f s = .next t) :
    writeUreg (sregAsUreg r) (f (sregHeld s r)) s = .next t := by
  cases r
  case lirptl =>
    simp only [changeSreg, loadLirptl] at h
    split at h
    · rename_i hv
      cases h
      show loadLirptl _ _ s = _
      rw [loadLirptl, if_pos ⟨hv.1, by rw [sregHeld, hv.2]; rfl⟩]
      rfl
    · cases h
  all_goals exact h

/-! ### Operations -/

/-- The fold of an operation's result writes changes the data registers alone. -/
theorem foldl_setR_shape (val : DReg → Word) (ds : List DReg) (s : State) :
    ds.foldl (fun t d => setR d (val d) t) s =
      { s with
        regs := (ds.foldl (fun t d => setR d (val d) t) s).regs
        regsAlt := (ds.foldl (fun t d => setR d (val d) t) s).regsAlt } := by
  induction ds generalizing s with
  | nil => rfl
  | cons d ds ih => exact ih (setR d (val d) s)

/-- ASTAT's arithmetic flags and the arithmetic interrupts of an operation (41_compute_move R141, 60_exceptions R296). -/
def withFlags (flags : Word) (latches : BitVec 4) (s : State) : State :=
  { s with astat := mergeBits arithMask s.astat flags, irptl := s.irptl ||| (latches.setWidth 32 <<< 23) }

/-- An operation writes its result registers, then MR, then the flags and the interrupts. -/
theorem computeWrites_eq (slot : Config.Slot) (c : Compute) (inp : Config.ComputeInput) (s : State) :
    computeWrites slot c inp s =
      withFlags (Config.computeFlags slot c inp) (Config.computeLatches slot c inp)
        (setMr (Config.computeMr slot c inp) (c.dests.foldl (fun t d => setR d (Config.computeValue slot c inp d) t) s)) := by
  unfold computeWrites
  rw [foldl_setR_shape]
  rfl

/-- A post-modify writes I[n] and may latch the interrupt of a wrap (40_dag_addressing R112, R117). -/
theorem modifyIndex_eq_next {n : Fin 16} {m : Word} {s t : State} (h : modifyIndex n m s = .next t) :
    ∃ v, t = setI n v s ∨ t = latchWrap n (setI n v s) := by
  unfold modifyIndex at h
  split at h
  · split at h
    · cases h
      refine ⟨(circularNext (s.getB n) (s.getL n) (s.getI n) m).1, ?_⟩
      split
      · exact .inr rfl
      · exact .inl rfl
    · cases h
  · cases h
    exact ⟨_, .inl rfl⟩

theorem testSreg_eq_next {r : SReg} {test : Word → Bool} {s t : State} (h : testSreg r test s = .next t) :
    ∃ b, t = { s with astat := withBtf s.astat b } := by
  obtain ⟨v, _, hv⟩ := andThen_eq_next.1 h
  cases hv
  exact ⟨_, rfl⟩

end Sys2Proof.Machine
end

section
/-! SUPPORT. What an instruction can do, said once: the primitive effects that its term lets it have (`Effect`), and that
every instruction is its place's check, a sequence of such effects, and its end (`exec_shape`). Frames and invariants of
instructions are then a case split over the primitive effects. -/

namespace Sys2Proof.Machine
open Sys2Proof.Safety

/-! ### Primitive effects -/

/-- The operation does something: an instruction holds it, and it is not `none`. -/
abbrev HoldsOperation (i : Instr) : Prop := ∃ c ∈ operations i, c ≠ .none

/-- One primitive effect that the instruction `i` may have on the state. -/
inductive Effect (i : Instr) : State → State → Prop
  /-- A data register that the instruction names is written (10_state R12). -/
  | dreg {s n v} (hn : n ∈ dregsWritten i) : Effect i s (setR n v s)
  /-- Registers of a DAG number that the instruction names are written (10_state R15, R16). -/
  | dag {s n d} (hn : n ∈ dagWritten i) (hd : ∀ k, k ≠ n → dagEntry d k = dagEntry (s.dagOf n) k) : Effect i s (setDag n d s)
  /-- The interrupt of a wrap is latched (40_dag_addressing R117). -/
  | wrap {s n} : Effect i s (latchWrap n s)
  /-- A data word is stored (20_memory R64). -/
  | store {s a v} : Effect i s { s with mem := Memory.writeWord s.mem a v }
  /-- IOFLAG is stored to (10_state R48, log 15). -/
  | ioflag {s v} : Effect i s { s with ioflag := v }
  /-- An operation writes MR (41_compute_move R141). -/
  | mr {s v} (ho : HoldsOperation i) : Effect i s (setMr v s)
  /-- An operation writes the arithmetic flags and latches its interrupts (41_compute_move R141, 60_exceptions R296). -/
  | flags {s f l} (ho : HoldsOperation i) : Effect i s (withFlags f l s)
  | tcount {s v} (hu : uregDest i = some .tcount) : Effect i s { s with tcount := v }
  | tperiod {s v} (hu : uregDest i = some .tperiod) : Effect i s { s with tperiod := v }
  | lcntr {s v} (hu : uregDest i = some .lcntr) : Effect i s { s with lcntr := v }
  | laddr {s v} (hu : uregDest i = some .laddr) : Effect i s { s with laddr := v }
  | mode1 {s v} (hu : uregDest i = some .mode1) (hv : writable .mode1 v s = true) :
      Effect i s { s with mode1 := v, mode1Wrote := true }
  | mode2 {s v} (hu : uregDest i = some .mode2) (hv : writable .mode2 v s = true) : Effect i s { s with mode2 := v }
  | mmask {s v} (hu : uregDest i = some .mmask) : Effect i s { s with mmask := v }
  | astat {s v} (hu : uregDest i = some .astat) : Effect i s { s with astat := v }
  | irptl {s v} (hu : uregDest i = some .irptl) (hv : writable .irptl v s = true) : Effect i s (uregWritten .irptl v s)
  | imask {s v} (hu : uregDest i = some .imask) (hv : writable .imask v s = true) : Effect i s { s with imask := v }
  | lirptl {s v} (hu : uregDest i = some .lirptl) (hv : writable .lirptl v s = true) : Effect i s (uregWritten .lirptl v s)
  | ustat1 {s v} (hu : uregDest i = some .ustat1) : Effect i s { s with ustat1 := v }
  /-- `BIT TST` and `BIT XOR` write BTF (44_system_register R234, R235). -/
  | bitTest {s b} (ht : ofBitTest i = true) : Effect i s { s with astat := withBtf s.astat b }
  | idle {s} (hi : i = .idle) : Effect i s { s with idle := true }
  | statusPush {s} (hs : ofStatusStack i = true) (hl : s.statusStack.length < 15) : Effect i s (statusPushed s)
  | statusPop {s e rest} (hs : ofStatusStack i = true) (hl : s.statusStack = e :: rest) (hr : e.mode1 &&& 0xFE180300 = 0) :
      Effect i s (statusPopped e s)
  /-- `CALL` pushes its return address (43_program_flow R206). -/
  | call {s a} (hb : barredFromSlots i = true) (hl : s.pcStack.length < 30) : Effect i s (pcPushed a .call s)
  /-- `RTS` pops the entry of a call (43_program_flow R214). -/
  | ret {s a rest} (hb : barredFromSlots i = true) (hp : s.pcStack = ⟨a, .call⟩ :: rest) : Effect i s { s with pcStack := rest }
  /-- `RTI` pops the interrupt in service and its entry (60_exceptions R270). -/
  | serviceEnd {s a rest n isrv} (hb : barredFromSlots i = true) (hi : s.isrv = n :: isrv)
      (hp : s.pcStack = ⟨a, .interrupt⟩ :: rest) : Effect i s { s with pcStack := rest, isrv := isrv }
  /-- `(CI)` re-tags the entry of the interrupt in service (60_exceptions R271). -/
  | serviceClear {s n isrv} (hb : barredFromSlots i = true) (hi : s.isrv = n :: isrv) :
      Effect i s { s with isrv := isrv, pcStack := retagInterrupt s.pcStack }
  /-- `(LA)` pops the innermost loop (43_program_flow R203). -/
  | loopAbort {s e loops a rest} (hb : barredFromSlots i = true) (hl : s.loopStack = e :: loops)
      (hp : s.pcStack = ⟨a, .loop⟩ :: rest) : Effect i s { s with loopStack := loops, pcStack := rest }
  /-- `DO` starts a loop (43_program_flow R216). -/
  | loopStart {s e term n} (hb : barredFromSlots i = true) (hn : ∀ outer ∈ s.loopStack.head?, e.toNat < outer.endAddr.toNat)
      (hp : s.pcStack.length < 30) (hl : s.loopStack.length < 6) (hc : i.WellFormed → term = .lce → n ≠ 0) :
      Effect i s (loopPushed e term n s)

/-- A sequence of primitive effects. -/
abbrev Effects (i : Instr) : State → State → Prop := Relation.ReflTransGen (Effect i)

theorem Effects.preserves {i : Instr} {P : State → Prop} (hP : ∀ a b, Effect i a b → P a → P b) {s t : State}
    (h : Effects i s t) (hs : P s) : P t := by
  induction h with
  | refl => exact hs
  | tail _ hab ih => exact hP _ _ hab ih

/-! ### What a term names -/

theorem dests_subset {i : Instr} {c : Compute} (hc : c ∈ operations i) {d : DReg} (hd : d ∈ c.dests) :
    d ∈ dregsWritten i := by
  have clause : ∀ cl, c ∈ clauseOperations cl → d ∈ clauseDests cl := by
    intro cl hcl
    cases cl with
    | none => cases hcl
    | withCompute c' | elseCompute c' =>
      cases List.mem_singleton.1 hcl
      exact hd
  cases i
  case jumpInd | jumpShort | callInd | callShort | rts | rti => exact clause _ hc
  all_goals simp_all [operations, dregsWritten]

theorem dreg_mem_of_uregDest {i : Instr} {n : DReg} (h : uregDest i = some (.r n)) : n ∈ dregsWritten i := by
  cases i
  case bitSet r _ | bitClr r _ | bitTgl r _ => cases r <;> cases h
  all_goals simp_all [uregDest, dregsWritten, uregDreg]

theorem dag_mem_of_uregDest {i : Instr} {u : UReg} {n : Fin 16} (h : uregDest i = some u) (hn : n ∈ uregDag u) :
    n ∈ dagWritten i := by
  cases i
  case bitSet r _ | bitClr r _ | bitTgl r _ =>
    cases h
    cases r <;> cases hn
  case doCountImm | doCountUreg =>
    cases h
    cases hn
  all_goals simp_all [uregDest, dagWritten]

theorem clauseOperation_mem (clause : Clause) (taken : Bool) :
    clauseOperation clause taken = .none ∨ clauseOperation clause taken ∈ clauseOperations clause := by
  cases clause <;> cases taken <;> simp [clauseOperation, clauseOperations]

/-! ### The shared operations as effects -/

section
variable {i : Instr} {s t : State}

theorem effects_applyCompute {slot : Config.Slot} {c : Compute} {inp : Config.ComputeInput}
    (hc : c = .none ∨ c ∈ operations i) : Effects i s (applyCompute slot c inp s) := by
  by_cases hn : c = .none
  · rw [hn]
    exact .refl
  · have hc := hc.resolve_left hn
    have ho : HoldsOperation i := ⟨c, hc, hn⟩
    have hfold : ∀ (ds : List DReg) (s : State), (∀ d ∈ ds, d ∈ dregsWritten i) →
        Effects i s (ds.foldl (fun t d => setR d (Config.computeValue slot c inp d) t) s) := by
      intro ds
      induction ds with
      | nil => exact fun _ _ => .refl
      | cons d ds ih =>
        intro s hd
        exact .head (.dreg (hd d (by simp))) (ih _ fun d' h' => hd d' (by simp [h']))
    have ha : applyCompute slot c inp s = computeWrites slot c inp s := by
      cases c
      case none => exact absurd rfl hn
      all_goals rfl
    rw [ha, computeWrites_eq]
    exact ((hfold c.dests s fun d hd => dests_subset hc hd).tail (.mr ho)).tail (.flags ho)

/-- A write of one register changes the entries of its number alone. -/
theorem dagEntry_set_ne {n k : Fin 16} (hk : k ≠ n) (d : DagRegs) (v : Word) :
    dagEntry { d with i := d.i.set n v } k = dagEntry d k ∧ dagEntry { d with m := d.m.set n v } k = dagEntry d k ∧
      dagEntry { d with l := d.l.set n v } k = dagEntry d k ∧
      dagEntry { d with b := d.b.set n v, i := d.i.set n v } k = dagEntry d k := by
  have hn : n.val ≠ k.val := fun h => hk (Fin.ext h.symm)
  simp [dagEntry, Vector.getElem_set_ne _ _ hn]

theorem effects_setI {n : Fin 16} {v : Word} (hn : n ∈ dagWritten i) : Effects i s (setI n v s) :=
  .single (.dag hn fun _ hk => (dagEntry_set_ne hk _ v).1)

theorem effects_modifyIndex {n : Fin 16} {m : Word} (hn : n ∈ dagWritten i) (h : modifyIndex n m s = .next t) :
    Effects i s t := by
  obtain ⟨v, rfl | rfl⟩ := modifyIndex_eq_next h
  · exact effects_setI hn
  · exact (effects_setI hn).tail .wrap

theorem effects_dagUpdate {form : DagForm} {n : Fin 16} {m : Word} (hn : form = .post → n ∈ dagWritten i)
    (h : dagUpdate form n m s = .next t) : Effects i s t := by
  cases form with
  | post => exact effects_modifyIndex (hn rfl) h
  | pre =>
    cases h
    exact .refl

theorem effects_memWrite {bus : Bus} {a v : Word} (h : memWrite bus a v s = .next t) : Effects i s t := by
  obtain rfl | rfl | rfl := memWrite_eq_next h
  · exact .refl
  · exact .single .store
  · exact .single .ioflag

/-- An instruction may write the universal register: its destination, or a data register that it names. -/
abbrev NamesUreg (i : Instr) (u : UReg) : Prop := uregDest i = some u ∨ ∃ n ∈ dregsWritten i, u = .r n

theorem effects_writeUreg {u : UReg} {v : Word} (hu : NamesUreg i u) (h : writeUreg u v s = .next t) : Effects i s t := by
  obtain hu | ⟨n, hn, rfl⟩ := hu
  swap
  · cases h
    exact .single (.dreg hn)
  obtain ⟨hw, ht⟩ := writeUreg_eq_next h
  cases u
  case r n =>
    cases h
    exact .single (.dreg (dreg_mem_of_uregDest hu))
  case i n | m n | l n | b n =>
    cases h
    refine .single (.dag (dag_mem_of_uregDest hu (by simp [uregDag])) fun k hk => ?_)
    obtain ⟨hi, hm, hl, hb⟩ := dagEntry_set_ne hk (s.dagOf n) v
    assumption
  all_goals subst ht
  case tcount => exact .single (.tcount hu)
  case tperiod => exact .single (.tperiod hu)
  case lcntr => exact .single (.lcntr hu)
  case laddr => exact .single (.laddr hu)
  case mode1 => exact .single (.mode1 hu hw)
  case mode2 => exact .single (.mode2 hu hw)
  case mmask => exact .single (.mmask hu)
  case astat => exact .single (.astat hu)
  case irptl => exact .single (.irptl hu hw)
  case imask => exact .single (.imask hu hw)
  case lirptl => exact .single (.lirptl hu hw)
  case ustat1 => exact .single (.ustat1 hu)
  all_goals cases h

theorem effects_changeSreg {r : SReg} {f : Word → Word} (hr : uregDest i = some (sregAsUreg r))
    (h : changeSreg r f s = .next t) : Effects i s t :=
  effects_writeUreg (.inl hr) (changeSreg_eq_next h)

theorem effects_testSreg {r : SReg} {test : Word → Bool} (hi : ofBitTest i = true) (h : testSreg r test s = .next t) :
    Effects i s t := by
  obtain ⟨b, rfl⟩ := testSreg_eq_next h
  exact .single (.bitTest hi)

theorem effects_storeMove {form : DagForm} {bus : Bus} {n : Fin 16} {m v : Word} {slot : Config.Slot} {c : Compute}
    (hn : form = .post → n ∈ dagWritten i) (hc : c = .none ∨ c ∈ operations i)
    (h : storeMove form bus n m v slot c s = .next t) : Effects i s t := by
  obtain ⟨s1, h1, h⟩ := andThen_eq_next.1 h
  obtain ⟨s2, h2, h3⟩ := andThen_eq_next.1 h
  cases h3
  exact ((effects_dagUpdate hn h1).trans (effects_memWrite h2)).trans (effects_applyCompute hc)

theorem effects_loadMove {form : DagForm} {bus : Bus} {n : Fin 16} {m : Word} {u : UReg} {slot : Config.Slot} {c : Compute}
    (hn : form = .post → n ∈ dagWritten i) (hc : c = .none ∨ c ∈ operations i) (hu : NamesUreg i u)
    (h : loadMove form bus n m u slot c s = .next t) : Effects i s t := by
  obtain ⟨s1, h1, h⟩ := andThen_eq_next.1 h
  obtain ⟨v, _, h2⟩ := andThen_eq_next.1 h
  exact ((effects_dagUpdate hn h1).trans (effects_applyCompute hc)).trans (effects_writeUreg hu h2)

theorem effects_whenCond {c : CondCode} {x : Result} (hx : x = .next t → Effects i s t) (h : whenCond c s x = .next t) :
    Effects i s t := by
  unfold whenCond at h
  split at h
  · exact hx h
  · cases h
    exact .refl

theorem effects_dualAccess {dir : Dir} {bus : Bus} {a v x : Word} (h : dualAccess dir bus a v s = .next (x, t)) :
    Effects i s t := by
  cases dir with
  | store =>
    obtain ⟨s1, h1, h2⟩ := andThen_eq_next.1 h
    cases h2
    exact effects_memWrite h1
  | load =>
    obtain ⟨y, _, h2⟩ := andThen_eq_next.1 h
    cases h2
    exact .refl

theorem effects_dualResult {dir : Dir} {d : DReg} {x : Word} (hd : dir = .load → d ∈ dregsWritten i) :
    Effects i s (dualResult dir d x s) := by
  cases dir with
  | store => exact .refl
  | load => exact .single (.dreg (hd rfl))

/-! ### Branches as effects -/

theorem effects_jumpTaken {a : PAddr} {db la ci : Bool} {y : Yield} (hb : barredFromSlots i = true)
    (h : jumpTaken a db la ci s = .next (t, y)) : Effects i s t := by
  obtain ⟨s1, h1, h⟩ := andThen_eq_next.1 h
  obtain ⟨s2, h2, h⟩ := andThen_eq_next.1 h
  cases h
  have e1 : Effects i s s1 := by
    split at h1
    · obtain ⟨e, loops, a, rest, hl, hp, rfl⟩ := abortLoop_eq_next h1
      exact .single (.loopAbort hb hl hp)
    · cases h1
      exact .refl
  have e2 : Effects i s1 t := by
    split at h2
    · obtain ⟨n, isrv, hi, rfl⟩ := clearInterrupt_eq_next h2
      exact .single (.serviceClear hb hi)
    · cases h2
      exact .refl
  exact e1.trans e2

theorem effects_callTaken {a : PAddr} {db : Bool} {y : Yield} (hb : barredFromSlots i = true)
    (h : callTaken a db s = .next (t, y)) : Effects i s t := by
  obtain ⟨s1, h1, h⟩ := andThen_eq_next.1 h
  cases h
  obtain ⟨hl, rfl⟩ := pushPc_eq_next.1 h1
  exact .single (.call hb hl)

theorem effects_rtsTaken {db lr : Bool} {y : Yield} (hb : barredFromSlots i = true)
    (h : rtsTaken db lr s = .next (t, y)) : Effects i s t := by
  unfold rtsTaken at h
  split at h
  · cases h
  · obtain ⟨⟨a, s1⟩, h1, h⟩ := andThen_eq_next.1 h
    cases h
    obtain ⟨rest, hp, rfl⟩ := popPc_eq_next.1 h1
    exact .single (.ret hb hp)

theorem effects_returnFromInterrupt {a : PAddr} (hb : barredFromSlots i = true) (hs : ofStatusStack i = true)
    (h : returnFromInterrupt s = .next (a, t)) : Effects i s t := by
  obtain ⟨n, isrv, rest, hi, hp, rfl | hpop⟩ := returnFromInterrupt_eq_next h
  · exact .single (.serviceEnd hb hi hp)
  · obtain ⟨e, rest, hl, hr, rfl⟩ := popStatus_eq_next hpop
    exact (Relation.ReflTransGen.single (.serviceEnd hb hi hp)).tail (.statusPop hs hl hr)

theorem effects_branchEffects {cond : CondCode} {clause : Clause} {taken : Host.Outcome (State × Yield) Fault Refusal}
    {y : Yield} (hc : ∀ c ∈ clauseOperations clause, c ∈ operations i)
    (ht : ∀ s1 y1, taken = .next (s1, y1) → Effects i s s1) (h : branchEffects cond clause s taken = .next (t, y)) :
    Effects i s t := by
  unfold branchEffects at h
  split at h
  · obtain ⟨⟨s1, y1⟩, h1, h⟩ := andThen_eq_next.1 h
    cases h
    exact (ht _ _ h1).trans (effects_applyCompute ((clauseOperation_mem clause true).imp_right (hc _)))
  · cases h
    exact effects_applyCompute ((clauseOperation_mem clause false).imp_right (hc _))

theorem effects_jumpElseMove {cond : CondCode} {a : PAddr} {c : Compute} {dir : Dir} {ia mb : Fin 8} {d : DReg} {y : Yield}
    (hn : dagIndex .dm ia ∈ dagWritten i) (hc : c ∈ operations i) (hd : dir = .load → d ∈ dregsWritten i)
    (h : jumpElseMove cond a c dir ia mb d s = .next (t, y)) : Effects i s t := by
  unfold jumpElseMove at h
  split at h
  · cases h
    exact .refl
  · obtain ⟨s1, h1, h⟩ := andThen_eq_next.1 h
    cases h
    cases dir with
    | store => exact effects_storeMove (fun _ => hn) (.inr hc) h1
    | load => exact effects_loadMove (fun _ => hn) (.inr hc) (.inr ⟨d, hd rfl, rfl⟩) h1

theorem effects_startLoop {e : PAddr} {term : CondCode} {n : Word} (hb : barredFromSlots i = true)
    (hc : i.WellFormed → term = .lce → n ≠ 0) (h : startLoop e term n s = .next t) : Effects i s t := by
  obtain ⟨hn, hp, hl, rfl⟩ := startLoop_eq_next h
  exact .single (.loopStart hb hn hp hl hc)

theorem effects_countedLoop {e : PAddr} {n : Word} (hb : barredFromSlots i = true) (hu : uregDest i = some .lcntr)
    (h : countedLoop n e s = .next t) : Effects i s t := by
  unfold countedLoop at h
  split at h
  · cases h
  · rename_i hn
    obtain ⟨s1, h1, h⟩ := andThen_eq_next.1 h
    cases h
    exact (effects_startLoop hb (fun _ _ => hn) h1).tail (.lcntr hu)

end

/-! ### Every instruction -/

/-- What kind of instruction the term is, for the rules on delay slots and loop ends (43_program_flow R220, R223). -/
def flowKind : Instr → FlowKind
  | .jumpDirect _ _ db la _ | .jumpRel _ _ db la _ | .jumpInd _ _ _ db la _ _ | .jumpShort _ _ db la _ _ => .jump la db
  | .jumpIndMove _ _ _ _ _ _ _ _ | .jumpShortMove _ _ _ _ _ _ _ => .jump false false
  | .callDirect _ _ _ | .callRel _ _ _ | .callInd _ _ _ _ _ | .callShort _ _ _ _ | .rts _ _ _ _ | .rti _ _ _ => .flow
  | .doCountImm _ _ | .doCountUreg _ _ | .doUntil _ _ => .flow
  | .idle | .pushSts => .notInSlot
  | .popSts => .popSts
  | _ => .plain

theorem flowKind_inSlot {i : Instr} (h : barredFromSlots i = true) (d : Delay) : (flowKind i).inSlot d = false := by
  cases i <;> first | rfl | cases h

theorem flowKind_inTail (i : Instr) : (flowKind i).inTail = !barredFromTail i := by
  cases i
  case jumpDirect _ _ db la _ | jumpRel _ _ db la _ | jumpInd _ _ _ db la _ _ | jumpShort _ _ db la _ _ =>
    cases db <;> cases la <;> rfl
  all_goals rfl

/-- The instruction in the state is the run of effects that its term lets it have. -/
def Shaped (i : Instr) (s : State) : Prop :=
  ∃ effects, exec i s = run (flowKind i) s effects ∧ ∀ s1 y, effects = .next (s1, y) → Effects i s s1

theorem shaped_plain {i : Instr} {s : State} {x : Result} (hi : exec i s = runPlain (flowKind i) s x)
    (hx : ∀ t, x = .next t → Effects i s t) : Shaped i s := by
  refine ⟨_, hi, fun s1 y h => ?_⟩
  obtain ⟨s2, h1, h2⟩ := andThen_eq_next.1 h
  cases h2
  exact hx s1 h1

theorem shaped_branch {i : Instr} {s : State} {cond : CondCode} {clause : Clause}
    {taken : Host.Outcome (State × Yield) Fault Refusal}
    (hi : exec i s = run (flowKind i) s (branchEffects cond clause s taken))
    (hc : ∀ c ∈ clauseOperations clause, c ∈ operations i)
    (ht : ∀ s1 y1, taken = .next (s1, y1) → Effects i s s1) : Shaped i s :=
  ⟨_, hi, fun _ _ h => effects_branchEffects hc ht h⟩

theorem shaped_indirect {i : Instr} {s : State} {cond : CondCode} {md ic : Fin 8} {clause : Clause}
    {taken : PAddr → Host.Outcome (State × Yield) Fault Refusal}
    (hi : exec i s = run (flowKind i) s (andThen (s.indirectTarget md ic) fun t => branchEffects cond clause s (taken t)))
    (hc : ∀ c ∈ clauseOperations clause, c ∈ operations i)
    (ht : ∀ a s1 y1, taken a = .next (s1, y1) → Effects i s s1) : Shaped i s := by
  refine ⟨_, hi, fun s1 y h => ?_⟩
  obtain ⟨a, _, h⟩ := andThen_eq_next.1 h
  exact effects_branchEffects hc (ht a) h

theorem shaped_computeDualMove (c : Compute) (dmDir : Dir) (ia mb : Fin 8) (d1 : DReg) (pmDir : Dir) (ic md : Fin 8)
    (d2 : DReg) (s : State) : Shaped (.computeDualMove c dmDir ia mb d1 pmDir ic md d2) s := by
  generalize hi : Instr.computeDualMove c dmDir ia mb d1 pmDir ic md d2 = i
  have hia : dagIndex .dm ia ∈ dagWritten i := by simp [← hi, dagWritten]
  have hic : dagIndex .pm ic ∈ dagWritten i := by simp [← hi, dagWritten]
  have hd1 : dmDir = .load → d1 ∈ dregsWritten i := fun hd => by simp [← hi, dregsWritten, hd]
  have hd2 : pmDir = .load → d2 ∈ dregsWritten i := fun hd => by simp [← hi, dregsWritten, hd]
  have hc : c ∈ operations i := by simp [← hi, operations]
  refine shaped_plain (by rw [← hi]; rfl) fun t h => ?_
  obtain ⟨s1, h1, h⟩ := andThen_eq_next.1 h
  obtain ⟨s2, h2, h⟩ := andThen_eq_next.1 h
  split at h
  · cases h
  · obtain ⟨⟨x1, s3⟩, h3, h⟩ := andThen_eq_next.1 h
    obtain ⟨⟨x2, s4⟩, h4, h⟩ := andThen_eq_next.1 h
    cases h
    have updates := (effects_modifyIndex hia h1).trans (effects_modifyIndex hic h2)
    have accesses : Effects i s2 s4 := (effects_dualAccess h3).trans (effects_dualAccess h4)
    exact ((updates.trans accesses).trans (effects_applyCompute (.inr hc))).trans
      ((effects_dualResult hd1).trans (effects_dualResult hd2))

theorem shaped_rti (cond : CondCode) (db : Bool) (clause : Clause) (s : State) : Shaped (.rti cond db clause) s := by
  refine ⟨_, rfl, fun s1 y h => ?_⟩
  have hc : Effects (.rti cond db clause) s
      (applyCompute .compute (clauseOperation clause (s.cond cond)) s.computeInput s) :=
    effects_applyCompute (clauseOperation_mem clause _)
  dsimp only at h
  split at h
  · obtain ⟨⟨a, s2⟩, h1, h⟩ := andThen_eq_next.1 h
    cases h
    exact hc.trans (effects_returnFromInterrupt rfl rfl h1)
  · cases h
    exact hc

/-- Every instruction is the check of its place, a sequence of the effects that its term lets it have, and its end. -/
theorem exec_shaped (i : Instr) (s : State) : Shaped i s := by
  cases i
  case computeDualMove => exact shaped_computeDualMove ..
  case ifCompute =>
    exact shaped_plain rfl fun t h => effects_whenCond (fun h => by
      cases h
      exact effects_applyCompute (.inr (List.mem_singleton_self _))) h
  case storePostUreg | storePreUreg =>
    refine shaped_plain rfl fun t h => effects_whenCond (fun h => ?_) h
    obtain ⟨v, _, h⟩ := andThen_eq_next.1 h
    exact effects_storeMove (by simp [dagWritten]) (.inr (List.mem_singleton_self _)) h
  case loadPostUreg | loadPreUreg =>
    exact shaped_plain rfl fun t h => effects_whenCond (fun h =>
      effects_loadMove (by simp [dagWritten]) (.inr (List.mem_singleton_self _)) (.inl rfl) h) h
  case storePostData6 | storePreData6 | shiftStorePost =>
    exact shaped_plain rfl fun t h => effects_whenCond (fun h =>
      effects_storeMove (by simp [dagWritten]) (.inr (List.mem_singleton_self _)) h) h
  case loadPostData6 | loadPreData6 | shiftLoadPost =>
    exact shaped_plain rfl fun t h => effects_whenCond (fun h =>
      effects_loadMove (by simp [dagWritten]) (.inr (List.mem_singleton_self _))
        (.inr ⟨_, by simp [dregsWritten], rfl⟩) h) h
  case moveUreg =>
    refine shaped_plain rfl fun t h => effects_whenCond (fun h => ?_) h
    obtain ⟨v, _, h⟩ := andThen_eq_next.1 h
    exact (effects_applyCompute (.inr (List.mem_singleton_self _))).trans (effects_writeUreg (.inl rfl) h)
  case modifyReg =>
    refine shaped_plain rfl fun t h => effects_whenCond (fun h => ?_) h
    obtain ⟨s1, h1, h⟩ := andThen_eq_next.1 h
    cases h
    exact (effects_modifyIndex (List.mem_singleton_self _) h1).trans
      (effects_applyCompute (.inr (List.mem_singleton_self _)))
  case storeDirect =>
    refine shaped_plain rfl fun t h => ?_
    obtain ⟨v, _, h⟩ := andThen_eq_next.1 h
    exact effects_memWrite h
  case loadDirect =>
    refine shaped_plain rfl fun t h => ?_
    obtain ⟨v, _, h⟩ := andThen_eq_next.1 h
    exact effects_writeUreg (.inl rfl) h
  case storePreData32 =>
    refine shaped_plain rfl fun t h => ?_
    obtain ⟨v, _, h⟩ := andThen_eq_next.1 h
    exact effects_storeMove (by simp) (.inl rfl) h
  case loadPreData32 => exact shaped_plain rfl fun t h => effects_loadMove (by simp) (.inl rfl) (.inl rfl) h
  case storePostImm => exact shaped_plain rfl fun t h => effects_storeMove (by simp [dagWritten]) (.inl rfl) h
  case loadImm => exact shaped_plain rfl fun t h => effects_writeUreg (.inl rfl) h
  case modifyImm => exact shaped_plain rfl fun t h => effects_modifyIndex (List.mem_singleton_self _) h
  case bitrev =>
    refine shaped_plain rfl fun t h => ?_
    cases h
    exact effects_setI (List.mem_singleton_self _)
  case jumpDirect | jumpRel | jumpShort =>
    exact shaped_branch rfl (fun _ h => h) fun _ _ h => effects_jumpTaken rfl h
  case callDirect | callRel | callShort =>
    exact shaped_branch rfl (fun _ h => h) fun _ _ h => effects_callTaken rfl h
  case jumpInd => exact shaped_indirect rfl (fun _ h => h) fun _ _ _ h => effects_jumpTaken rfl h
  case callInd => exact shaped_indirect rfl (fun _ h => h) fun _ _ _ h => effects_callTaken rfl h
  case jumpIndMove =>
    refine ⟨_, rfl, fun s1 y h => ?_⟩
    obtain ⟨a, _, h⟩ := andThen_eq_next.1 h
    exact effects_jumpElseMove (by simp [dagWritten]) (List.mem_singleton_self _) (fun hd => by simp [dregsWritten, hd]) h
  case jumpShortMove =>
    exact ⟨_, rfl, fun s1 y h => effects_jumpElseMove (by simp [dagWritten]) (List.mem_singleton_self _)
      (fun hd => by simp [dregsWritten, hd]) h⟩
  case rts => exact shaped_branch rfl (fun _ h => h) fun _ _ h => effects_rtsTaken rfl h
  case rti => exact shaped_rti ..
  case doCountImm => exact shaped_plain rfl fun t h => effects_countedLoop rfl rfl h
  case doCountUreg =>
    refine shaped_plain rfl fun t h => ?_
    obtain ⟨n, _, h⟩ := andThen_eq_next.1 h
    exact effects_countedLoop rfl rfl h
  case doUntil target term =>
    refine shaped_plain rfl fun t h => effects_startLoop rfl (fun hw ht => ?_) h
    subst ht
    cases hw
  case nop =>
    refine shaped_plain rfl fun t h => ?_
    cases h
    exact .refl
  case idle =>
    refine shaped_plain rfl fun t h => ?_
    cases h
    exact .single (.idle rfl)
  case bitSet | bitClr | bitTgl => exact shaped_plain rfl fun t h => effects_changeSreg rfl h
  case bitTst | bitXor => exact shaped_plain rfl fun t h => effects_testSreg rfl h
  case pushSts =>
    refine shaped_plain rfl fun t h => ?_
    obtain ⟨hl, rfl⟩ := pushStatus_eq_next.1 h
    exact .single (.statusPush rfl hl)
  case popSts =>
    refine shaped_plain rfl fun t h => ?_
    obtain ⟨e, rest, hl, hr, rfl⟩ := popStatus_eq_next h
    exact .single (.statusPop rfl hl hr)

/-- What an instruction that answers a next state did. -/
theorem exec_eq_next {i : Instr} {s t : State} (h : exec i s = .next t) :
    Sisd s ∧ (barredFromSlots i = true → s.dly = none) ∧ ∃ s1 y, Effects i s s1 ∧ retire y s1 = .next t := by
  obtain ⟨effects, he, hx⟩ := exec_shaped i s
  obtain ⟨hs, hd, _, s1, y, h1, hr⟩ := run_eq_next (he ▸ h)
  refine ⟨hs, fun hb => ?_, s1, y, hx s1 y h1, hr⟩
  by_contra hn
  obtain ⟨d, hsd⟩ := Option.ne_none_iff_exists'.1 hn
  have hk := hd d hsd
  rw [flowKind_inSlot hb] at hk
  cases hk

/-- A property that the primitive effects keep, and that the end of an instruction keeps, is kept by the instruction. -/
theorem exec_preserves {i : Instr} {P : State → Prop} (hP : ∀ a b, Effect i a b → P a → P b)
    (hr : ∀ y a b, retire y a = .next b → P a → P b) {s t : State} (h : exec i s = .next t) (hs : P s) : P t := by
  obtain ⟨_, _, s1, y, he, hy⟩ := exec_eq_next h
  exact hr y s1 t hy (he.preserves hP hs)

/-- A property of the state that does not speak of its place (`pc`, `dly` and the sequencer's stacks) is kept by the
instruction, where the primitive effects keep it. -/
theorem exec_preserves_of_place {i : Instr} {P : State → Prop} (hP : ∀ a b, Effect i a b → P a → P b)
    (hr : ∀ a pc dly loops stack, P a → P { a with pc := pc, dly := dly, loopStack := loops, pcStack := stack })
    {s t : State} (h : exec i s = .next t) (hs : P s) : P t := by
  refine exec_preserves hP (fun y a b hy ha => ?_) h hs
  obtain ⟨_, _, _, _, rfl⟩ := retire_eq_next hy
  exact hr _ _ _ _ _ ha

/-- A field that is no part of the state's place is left by the instruction, where no primitive effect changes it. -/
theorem exec_keeps {α : Type} {i : Instr} (f : State → α) (hf : ∀ a b, Effect i a b → f b = f a)
    (hr : ∀ a pc dly loops stack, f { a with pc := pc, dly := dly, loopStack := loops, pcStack := stack } = f a)
    {s t : State} (h : exec i s = .next t) : f t = f s :=
  exec_preserves_of_place (P := fun x => f x = f s) (fun a b hab ha => (hf a b hab).trans ha)
    (fun _ _ _ _ _ ha => (hr ..).trans ha) h rfl

end Sys2Proof.Machine
end

section
/-! SUPPORT. What one step of the machine can do: what the agents around the core change, and the cases of the core's step. -/

namespace Sys2Proof.Machine
open Sys2Proof.Safety

/-! ### The agents around the core -/

/-- One primitive effect of the environment, the flag pins or the timer. -/
inductive AgentEffect : State → State → Prop
  /-- An interrupt source latches; none latches EMUI (60_exceptions R253, R281). -/
  | latch {s n} (hn : n ≠ .emui) : AgentEffect s (latch n s)
  /-- A `shared` word is written (20_memory R74). -/
  | store {s a v} : AgentEffect s { s with mem := Memory.writeWord s.mem a v }
  /-- Pins, input flags, the timer's count, and the model's own bookkeeping. -/
  | world {s env pins astat ioflag tcount cycle} : AgentEffect s
      { s with env := env, flagPins := pins, astat := astat, ioflag := ioflag, tcount := tcount, cycle := cycle }
  /-- TIMEXP runs down, or starts its 4 cycles (10_state R51). -/
  | pulse {s k} (hk : k ≤ s.timexp ∨ k = 4) : AgentEffect s { s with timexp := k }

abbrev AgentEffects : State → State → Prop := Relation.ReflTransGen AgentEffect

theorem AgentEffects.preserves {P : State → Prop} (hP : ∀ a b, AgentEffect a b → P a → P b) {s t : State}
    (h : AgentEffects s t) (hs : P s) : P t := by
  induction h with
  | refl => exact hs
  | tail _ hab ih => exact hP _ _ hab ih

theorem source_ne_emui (src : EnvSource) : src.interrupt ≠ .emui := by cases src <;> decide

theorem agentEffects_foldl {α : Type} {f : State → α → State} (hf : ∀ s a, AgentEffects s (f s a)) (l : List α)
    (s : State) : AgentEffects s (l.foldl f s) := by
  induction l generalizing s with
  | nil => exact .refl
  | cons a l ih => exact (hf s a).trans (ih _)

theorem agentEffects_envWrite (s : State) (w : Word × Word) : AgentEffects s (envWrite s w) := by
  unfold envWrite
  split
  · exact .single .store
  · exact .refl

theorem agentEffects_envMove (mv : EnvMove) (s : State) : AgentEffects s (envMove mv s) :=
  ((agentEffects_foldl (fun _ src => .single (.latch (source_ne_emui src))) mv.latches s).trans
    (agentEffects_foldl agentEffects_envWrite mv.writes _)).tail .world

theorem agentEffects_envStep (s : State) : AgentEffects s (envStep s) := by
  unfold envStep
  split
  · exact .refl
  · exact .head .world (agentEffects_envMove _ _)

theorem agentEffects_timerStep (s : State) : AgentEffects s (timerStep s) := by
  unfold timerStep
  split
  · have reload : AgentEffects s { s with tcount := s.tperiod } := .single .world
    have start : AgentEffects s { s with tcount := s.tperiod, timexp := 4 } := reload.tail (.pulse (k := 4) (.inr rfl))
    exact (start.tail (.latch (by decide))).tail (.latch (by decide))
  · exact .single .world

theorem agentEffects_cycleStep (s : State) : AgentEffects s (cycleStep s) := by
  have run : AgentEffect s { s with timexp := s.timexp - 1 } := .pulse (.inl (Nat.sub_le ..))
  unfold cycleStep
  dsimp only
  split
  · exact .head run (agentEffects_timerStep _)
  · exact .single run

theorem agentEffects_cycles (n : Nat) (s : State) : AgentEffects s (cycles n s) := by
  induction n generalizing s with
  | zero => exact .refl
  | succ n ih => exact (agentEffects_cycleStep s).trans (ih _)

theorem agentEffects_agents (s : State) : AgentEffects s (agents s) := by
  have timer : ∀ u, AgentEffects u (runCycles u) := by
    intro u
    unfold runCycles
    split
    · exact .refl
    · exact agentEffects_cycles _ u
  have env : AgentEffects s (samplePins (envStep s)) := (agentEffects_envStep s).tail .world
  exact (env.trans (timer _)).tail .world

/-! ### The core -/

/-- The decoder gives well-formed terms only (30_encoding R96). -/
theorem wellFormed_of_decodeBytes {bs rest : List Byte} {i : Instr} (h : decodeBytes bs = .ok (i, rest)) : i.WellFormed := by
  have term : ∀ n, termOf n = .ok i → i.WellFormed := by
    intro n hn
    unfold termOf at hn
    split at hn
    · cases hn
    · split at hn
      · cases hn
      · split at hn
        · cases hn
          assumption
        · cases hn
  unfold decodeBytes at h
  split at h
  · split at h
    · cases h
      exact term _ ‹_›
    · cases h
  · cases h

theorem wellFormed_of_fetch {s : State} {i : Instr} (h : s.fetch = .next i) : i.WellFormed := by
  unfold State.fetch at h
  split at h
  · cases h
  · split at h
    · cases h
      exact wellFormed_of_decodeBytes ‹_›
    · cases h

/-- The state in which an instruction runs that answers a next state: MODE1's last written value is in force, and no write of
it is pending (10_state R46). -/
def settled (s : State) : State :=
  { s with mode1Wrote := false, mode1Act := if s.mode1Wrote then s.mode1 else s.mode1Act }

/-- Under the latency rule an instruction that answers a next state answers that of the new MODE1 (10_state R46). -/
theorem withLatency_eq_next {f : State → Result} {s t : State} (h : withLatency f s = .next t) :
    f (settled s) = .next t := by
  unfold withLatency at h
  dsimp only at h
  unfold settled
  split at h
  · rename_i hw
    simp only [hw, if_true]
    unfold agree at h
    split at h
    · rename_i h2
      split at h
      · exact h2.trans h
      · cases h
    all_goals first | cases h | (split at h <;> cases h)
  · rename_i hw
    simp only [Bool.not_eq_true] at hw
    simpa [hw] using h

/-- The cases of a step that answers a next state (43_program_flow R200, 60_exceptions R262, R263): after the agents, an
interrupt is taken, an idle core waits, or an awake core runs a well-formed instruction. -/
theorem step_eq_next {s t : State} (h : step s = .next t) :
    (∃ n, (agents s).takeable = some n ∧ takeInterrupt n (agents s) = .next t) ∨
      ((agents s).idle = true ∧ t = { agents s with irqWait := none }) ∨
      ∃ i wait, i.WellFormed ∧ (agents s).idle = false ∧ exec i (settled { agents s with irqWait := wait }) = .next t := by
  have run : ∀ wait, (andThen (State.fetch { agents s with irqWait := wait }) fun i =>
      withLatency (exec i) { agents s with irqWait := wait }) = .next t →
      ∃ i, i.WellFormed ∧ exec i (settled { agents s with irqWait := wait }) = .next t := by
    intro wait hr
    obtain ⟨i, hf, hl⟩ := andThen_eq_next.1 hr
    exact ⟨i, wellFormed_of_fetch hf, withLatency_eq_next hl⟩
  unfold step coreStep at h
  dsimp only at h
  split at h
  · rename_i n hn
    split at h
    · exact .inl ⟨n, hn, h⟩
    · rename_i k hk
      have hi : (agents s).idle = false := by
        cases hc : (agents s).idle with
        | false => rfl
        | true => simp [State.irqWaitNow, hc] at hk
      obtain ⟨i, hw, he⟩ := run _ h
      exact .inr (.inr ⟨i, _, hw, hi, he⟩)
  · split at h
    · rename_i hi
      cases h
      exact .inr (.inl ⟨hi, rfl⟩)
    · rename_i hi
      obtain ⟨i, hw, he⟩ := run _ h
      exact .inr (.inr ⟨i, _, hw, by simpa using hi, he⟩)

end Sys2Proof.Machine
end

section
/-! CERTIFICATE. Every step keeps the sequencer's invariant: the primitive effects of an instruction, its end, interrupt entry
and the agents each keep it. -/

namespace Sys2Proof.Machine
open Sys2Proof.Safety

/-! ### Tags -/

@[simp] theorem tagCount_cons (tag : PcTag) (e : PcEntry) (l : List PcEntry) :
    tagCount tag (e :: l) = tagCount tag l + if e.tag = tag then 1 else 0 := by
  simp [tagCount, List.countP_cons]

@[simp] theorem retagInterrupt_length (l : List PcEntry) : (retagInterrupt l).length = l.length := by
  induction l with
  | nil => rfl
  | cons e l ih =>
    unfold retagInterrupt
    split <;> simp [ih]

theorem tagCount_loop_retagInterrupt (l : List PcEntry) : tagCount .loop (retagInterrupt l) = tagCount .loop l := by
  induction l with
  | nil => rfl
  | cons e l ih =>
    unfold retagInterrupt
    split
    · rename_i ht
      simp [ht]
    · simp [ih]

/-- Re-tagging takes one interrupt entry away, where there is one. -/
theorem tagCount_interrupt_retagInterrupt (l : List PcEntry) :
    tagCount .interrupt (retagInterrupt l) = tagCount .interrupt l - 1 := by
  induction l with
  | nil => rfl
  | cons e l ih =>
    unfold retagInterrupt
    split
    · rename_i ht
      simp [ht]
    · rename_i ht
      simp [ih, ht]

/-! ### Instructions -/

/-- A loop that ends before the innermost one ends before every loop. -/
theorem loopsNested_cons {e : LoopEntry} {l : List LoopEntry}
    (hn : ∀ outer ∈ l.head?, e.endAddr.toNat < outer.endAddr.toNat)
    (hl : l.Pairwise fun inner outer => inner.endAddr.toNat < outer.endAddr.toNat) :
    (e :: l).Pairwise fun inner outer => inner.endAddr.toNat < outer.endAddr.toNat := by
  refine List.pairwise_cons.2 ⟨fun outer ho => ?_, hl⟩
  cases l with
  | nil => cases ho
  | cons first rest =>
    have hf : e.endAddr.toNat < first.endAddr.toNat := hn first rfl
    obtain rfl | hr := List.mem_cons.1 ho
    · exact hf
    · exact hf.trans ((List.pairwise_cons.1 hl).1 outer hr)

/-- A loop popped with its PC-stack entry. -/
theorem sequencerInv_popLoop {s : State} (h : SequencerInv s) {e : LoopEntry} {loops : List LoopEntry} {p : PcEntry}
    {below : List PcEntry} (hl : s.loopStack = e :: loops) (hp : s.pcStack = p :: below) (ht : p.tag = .loop) (pc : PAddr) :
    SequencerInv { s with loopStack := loops, pcStack := below, pc := pc } := by
  obtain ⟨⟨b1, b2, b3⟩, ⟨t1, t2⟩, n, c⟩ := h
  simp only [hl, hp, List.length_cons, tagCount_cons, ht] at b1 b2 t1 t2
  unfold LoopsNested at n
  rw [hl] at n
  refine ⟨⟨?_, ?_, b3⟩, ⟨?_, ?_⟩, n.of_cons, fun e' he' => c e' (by rw [hl]; exact List.mem_cons_of_mem _ he')⟩
  · exact Nat.le_of_succ_le b1
  · exact Nat.le_of_succ_le b2
  · simpa using t1
  · simpa using t2

theorem Effect.sequencerInv {i : Instr} (hw : i.WellFormed) {s t : State} (h : Effect i s t) (hs : SequencerInv s) :
    SequencerInv t := by
  obtain ⟨⟨b1, b2, b3⟩, ⟨t1, t2⟩, n, c⟩ := id hs
  cases h with
  | statusPush _ hl => exact ⟨⟨b1, b2, hl⟩, ⟨t1, t2⟩, n, c⟩
  | statusPop _ hl =>
    refine ⟨⟨b1, b2, ?_⟩, ⟨t1, t2⟩, n, c⟩
    exact (by simp : s.statusStack.tail.length ≤ s.statusStack.length).trans b3
  | call _ hl => exact ⟨⟨hl, b2, b3⟩, ⟨by simpa [pcPushed] using t1, by simpa [pcPushed] using t2⟩, n, c⟩
  | ret _ hp =>
    simp only [hp, List.length_cons, tagCount_cons] at b1 t1 t2
    exact ⟨⟨Nat.le_of_succ_le b1, b2, b3⟩, ⟨by simpa using t1, by simpa using t2⟩, n, c⟩
  | serviceEnd _ hi hp =>
    simp only [hp, hi, List.length_cons, tagCount_cons] at b1 t1 t2
    exact ⟨⟨Nat.le_of_succ_le b1, b2, b3⟩, ⟨by simpa using t1, by simpa using t2⟩, n, c⟩
  | serviceClear _ hi =>
    refine ⟨⟨by simpa using b1, b2, b3⟩, ⟨(tagCount_loop_retagInterrupt _).trans t1, ?_⟩, n, c⟩
    rw [tagCount_interrupt_retagInterrupt, t2, hi]
    rfl
  | loopAbort _ hl hp => exact sequencerInv_popLoop hs hl hp rfl _
  | loopStart _ hn hp hl hc =>
    refine ⟨⟨hp, hl, b3⟩, ⟨by simpa [loopPushed, pcPushed] using t1, by simpa [loopPushed, pcPushed] using t2⟩,
      loopsNested_cons hn n, fun e' he' ht => ?_⟩
    obtain rfl | he' := List.mem_cons.1 he'
    · exact hc hw ht
    · exact c e' he' ht
  | _ => exact hs

theorem loopEnd_sequencerInv {s t : State} (h : loopEnd s = .next t) (hs : SequencerInv s) : SequencerInv t := by
  unfold loopEnd at h
  split at h
  · cases h
    exact hs
  rename_i e rest hl
  split at h
  · cases h
  rename_i p below hp
  split at h
  · cases h
  rename_i htag
  have popped : SequencerInv { s with loopStack := rest, pcStack := below, pc := s.pc + 1 } :=
    sequencerInv_popLoop hs hl hp (not_not.1 htag) _
  split at h
  · split at h
    · cases h
      exact popped
    · rename_i hc
      cases h
      obtain ⟨⟨b1, b2, b3⟩, ⟨t1, t2⟩, n, c⟩ := hs
      simp only [hl, LoopsNested, List.length_cons, CountsLeft, List.forall_mem_cons, List.pairwise_cons] at b2 t1 n c
      exact ⟨⟨b1, b2, b3⟩, ⟨t1, t2⟩, List.pairwise_cons.2 n, List.forall_mem_cons.2 ⟨fun _ => hc, c.2⟩⟩
  · split at h <;> cases h
    · exact popped
    · exact hs

theorem retire_sequencerInv (y : Yield) (s t : State) (h : retire y s = .next t) (hs : SequencerInv s) : SequencerInv t := by
  unfold retire at h
  split at h
  · split at h
    · cases h
    · split at h <;> cases h <;> exact hs
  · split at h
    · cases h
      exact hs
    · cases h
      exact hs
    · split at h
      · exact loopEnd_sequencerInv h hs
      · cases h
        exact hs

theorem exec_sequencerInv {i : Instr} (hw : i.WellFormed) {s t : State} (h : exec i s = .next t) (hs : SequencerInv s) :
    SequencerInv t :=
  exec_preserves (fun _ _ => Effect.sequencerInv hw) retire_sequencerInv h hs

/-! ### Interrupt entry and the agents -/

theorem takeInterrupt_sequencerInv {n : Interrupt} {s t : State} (h : takeInterrupt n s = .next t) (hs : SequencerInv s) :
    SequencerInv t := by
  obtain ⟨⟨b1, b2, b3⟩, ⟨t1, t2⟩, hn, c⟩ := hs
  obtain ⟨hp, u, hu, rfl⟩ := takeInterrupt_eq_next h
  have tags : tagCount .loop (⟨s.pc, .interrupt⟩ :: s.pcStack) = s.loopStack.length ∧
      tagCount .interrupt (⟨s.pc, .interrupt⟩ :: s.pcStack) = (n :: s.isrv).length := by
    simp [t1, t2]
  obtain rfl | ⟨hl, rfl⟩ := hu
  · exact ⟨⟨hp, b2, b3⟩, tags, hn, c⟩
  · exact ⟨⟨hp, b2, hl⟩, tags, hn, c⟩

theorem agents_sequencerInv {s : State} (hs : SequencerInv s) : SequencerInv (agents s) := by
  refine (agentEffects_agents s).preserves (fun a b h ha => ?_) hs
  cases h <;> exact ha

end Sys2Proof.Machine

namespace Sys2Proof.Safety
open Sys2Proof.Machine

/-- Settles O53: the agents keep the invariant, and so does each case of the core's step. -/
theorem sequencerInvariantKept : Obligations.SequencerInvariantKept := by
  intro s t hs h
  have ha := agents_sequencerInv hs
  obtain ⟨n, _, ht⟩ | ⟨_, rfl⟩ | ⟨i, wait, hw, _, he⟩ := step_eq_next h
  · exact takeInterrupt_sequencerInv ht ha
  · exact ha
  · exact exec_sequencerInv hw he ha

end Sys2Proof.Safety
end

section
/-! CERTIFICATE. Every step keeps the control registers' invariant: reserved bits stay 0 through every write, latch and stack
operation, a MODE1 write settles at the next instruction, and an idle core has nothing pending. -/

namespace Sys2Proof.Machine
open Sys2Proof.Safety

/-! ### Clear bits -/

theorem or_clear {x y m : Word} (hx : x &&& m = 0) (hy : y &&& m = 0) : (x ||| y) &&& m = 0 := by
  rw [BitVec.and_comm, BitVec.and_or_distrib_left, BitVec.and_comm m x, BitVec.and_comm m y, hx, hy]
  rfl

theorem and_clear {x m : Word} (hx : x &&& m = 0) (y : Word) : (x &&& y) &&& m = 0 := by
  rw [BitVec.and_assoc, BitVec.and_comm y, ← BitVec.and_assoc, hx]
  exact BitVec.zero_and

/-- What is clear under the masks' common bits is clear after one mask under the other. -/
theorem masked_clear {x a m c : Word} (hc : a &&& m = c) (hx : x &&& c = 0) : (x &&& a) &&& m = 0 := by
  rw [BitVec.and_assoc, hc, hx]

/-- A value that differs from a clear one only outside a mask is clear under the mask. -/
theorem clear_of_xor_clear {x y m : Word} (hxy : (x ^^^ y) &&& m = 0) (hy : y &&& m = 0) : x &&& m = 0 := by
  have h := and_xor_eq_zero hxy hy
  rwa [BitVec.xor_assoc, BitVec.xor_self, BitVec.xor_zero] at h

theorem clear_of_clear_more {x m c : Word} (hx : x &&& m = 0) (hc : m &&& c = c) : x &&& c = 0 := by
  rw [← hc, ← BitVec.and_assoc, hx]
  exact BitVec.zero_and

theorem wrapBit_clear (n : Fin 16) : wrapBit n &&& 0x80004201 = 0 := by
  revert n
  decide

theorem computeLatches_clear (l : BitVec 4) : (l.setWidth 32 <<< 23 : Word) &&& 0x80004201 = 0 := by
  revert l
  decide

theorem irptlBit_clear {n : Interrupt} (hn : n ≠ .emui) : n.irptlBit &&& 0x80004201 = 0 := by
  cases n
  case emui => exact absurd rfl hn
  all_goals decide

theorem lirptlBit_clear (n : Interrupt) : n.lirptlBit &&& 0xFFF0FFF0 = 0 := by
  cases n <;> decide

/-! ### Reserved bits -/

theorem pcPushed_reservedClear {s : State} (a : PAddr) (tag : PcTag) (h : ReservedClear s) :
    ReservedClear (pcPushed a tag s) := by
  obtain ⟨m1, act, st, m2, irp, im, lirp⟩ := h
  refine ⟨m1, act, st, m2, ?_, im, lirp⟩
  unfold pcPushed
  dsimp only
  split
  · exact or_clear irp (by decide)
  · exact irp

theorem statusPushed_reservedClear {s : State} (h : ReservedClear s) : ReservedClear (statusPushed s) := by
  obtain ⟨m1, act, st, m2, irp, im, lirp⟩ := h
  exact ⟨and_clear m1 _, act, List.forall_mem_cons.2 ⟨act, st⟩, m2, irp, im, lirp⟩

theorem unlatch_reservedClear {s : State} (n : Interrupt) (h : ReservedClear s) : ReservedClear (unlatch n s) := by
  obtain ⟨m1, act, st, m2, irp, im, lirp⟩ := h
  exact ⟨m1, act, st, m2, and_clear irp _, im, and_clear lirp _⟩

theorem Effect.reservedClear {i : Instr} {s t : State} (h : Effect i s t) (hs : ReservedClear s) : ReservedClear t := by
  obtain ⟨m1, act, st, m2, irp, im, lirp⟩ := id hs
  cases h with
  | wrap => exact ⟨m1, act, st, m2, or_clear irp (wrapBit_clear _), im, lirp⟩
  | flags => exact ⟨m1, act, st, m2, or_clear irp (computeLatches_clear _), im, lirp⟩
  | mode1 _ hv => exact ⟨by simpa [writable] using hv, act, st, m2, irp, im, lirp⟩
  | mode2 _ hv => exact ⟨m1, act, st, by simpa [writable] using hv, irp, im, lirp⟩
  | irptl _ hv =>
    have hx : ∀ v, writable .irptl v s = true → v &&& 0x80000201 = 0 := fun v hv =>
      clear_of_xor_clear (by simpa [writable] using hv) (clear_of_clear_more irp (by decide))
    exact ⟨m1, act, st, m2, or_clear (masked_clear (c := 0x80000201) (by decide) (hx _ hv)) (and_clear irp _), im, lirp⟩
  | imask _ hv =>
    have hx : ∀ v, writable .imask v s = true → v &&& 0x80000200 = 0 := fun v hv => by
      simp only [writable, Bool.and_eq_true, beq_iff_eq] at hv
      exact hv.1
    exact ⟨m1, act, st, m2, irp, hx _ hv, lirp⟩
  | lirptl _ hv =>
    have hx : ∀ v, writable .lirptl v s = true → v &&& 0xF0F0FFF0 = 0 := fun v hv => by
      simp only [writable, Bool.and_eq_true, beq_iff_eq] at hv
      exact hv.1
    exact ⟨m1, act, st, m2, irp, im, or_clear (masked_clear (c := 0xF0F0FFF0) (by decide) (hx _ hv)) (and_clear lirp _)⟩
  | statusPush => exact statusPushed_reservedClear hs
  | statusPop _ _ hr => exact ⟨hr, act, fun e he => st e (List.mem_of_mem_tail he), m2, irp, im, lirp⟩
  | call => exact pcPushed_reservedClear _ _ hs
  | loopStart =>
    obtain ⟨m1', act', st', m2', irp', im', lirp'⟩ := pcPushed_reservedClear (s.pc + 1) .loop hs
    exact ⟨m1', act', st', m2', irp', im', lirp'⟩
  | _ => exact hs

theorem exec_reservedClear {i : Instr} {s t : State} (h : exec i s = .next t) (hs : ReservedClear s) : ReservedClear t :=
  exec_preserves_of_place (fun _ _ => Effect.reservedClear) (fun _ _ _ _ _ ha => ha) h hs

theorem takeInterrupt_reservedClear {n : Interrupt} {s t : State} (h : takeInterrupt n s = .next t) (hs : ReservedClear s) :
    ReservedClear t := by
  have hp := pcPushed_reservedClear s.pc .interrupt (unlatch_reservedClear n hs)
  obtain ⟨_, u, rfl | ⟨_, rfl⟩, rfl⟩ := takeInterrupt_eq_next h
  · exact hp
  · exact statusPushed_reservedClear hp

theorem AgentEffect.reservedClear {s t : State} (h : AgentEffect s t) (hs : ReservedClear s) : ReservedClear t := by
  cases h with
  | latch hn =>
    obtain ⟨m1, act, st, m2, irp, im, lirp⟩ := hs
    exact ⟨m1, act, st, m2, or_clear irp (irptlBit_clear hn), im, or_clear lirp (lirptlBit_clear _)⟩
  | _ => exact hs

theorem settled_reservedClear {s : State} (hs : ReservedClear s) : ReservedClear (settled s) := by
  obtain ⟨m1, act, rest⟩ := hs
  refine ⟨m1, ?_, rest⟩
  unfold settled
  dsimp only
  split
  · exact m1
  · exact act

/-! ### The other parts of the invariant -/

theorem Effect.modeSettled {i : Instr} {s t : State} (h : Effect i s t) (hs : ModeSettled s) : ModeSettled t := by
  cases h with
  | mode1 | statusPush | statusPop => exact nofun
  | _ => exact hs

theorem exec_modeSettled {i : Instr} {s t : State} (h : exec i s = .next t) (hs : ModeSettled s) : ModeSettled t :=
  exec_preserves_of_place (fun _ _ => Effect.modeSettled) (fun _ _ _ _ _ ha => ha) h hs

theorem settled_modeSettled {s : State} (hs : ModeSettled s) : ModeSettled (settled s) := by
  intro _
  cases hw : s.mode1Wrote with
  | true => simp [settled, hw]
  | false => simpa [settled, hw] using hs hw

theorem exec_timexp {i : Instr} {s t : State} (h : exec i s = .next t) : t.timexp = s.timexp :=
  exec_keeps _ (fun a b hab => by cases hab <;> rfl) (fun _ _ _ _ _ => rfl) h

theorem exec_idle {i : Instr} (hi : i ≠ .idle) {s t : State} (h : exec i s = .next t) : t.idle = s.idle := by
  refine exec_keeps _ (fun a b hab => ?_) (fun _ _ _ _ _ => rfl) h
  cases hab with
  | idle hi' => exact absurd hi' hi
  | _ => rfl

theorem loopEnd_dly {s t : State} (h : loopEnd s = .next t) : t.dly = s.dly := by
  unfold loopEnd at h
  split at h
  · cases h
    rfl
  · split at h
    · cases h
    · split at h
      · cases h
      · split at h <;> split at h <;> cases h <;> rfl

/-- An instruction that does not branch, outside a delay slot, leaves no branch pending. -/
theorem retire_noBranch_dly {s t : State} (h : retire .noBranch s = .next t) (hd : s.dly = none) : t.dly = none := by
  unfold retire at h
  simp only [hd] at h
  split at h
  · exact (loopEnd_dly h).trans hd
  · cases h
    rfl

/-- `IDLE` stands in no delay slot and leaves no branch pending (43_program_flow R222, R223). -/
theorem execIdle_settled {s t : State} (h : exec .idle s = .next t) : t.dly = none ∧ t.mode1Wrote = s.mode1Wrote := by
  obtain ⟨_, hd, _, s1, h1, hr⟩ := runPlain_eq_next h
  cases h1
  have hn : s.dly = none := by
    by_contra hc
    obtain ⟨d, hsd⟩ := Option.ne_none_iff_exists'.1 hc
    cases hd d hsd
  refine ⟨?_, ?_⟩
  · exact retire_noBranch_dly hr hn
  · obtain ⟨_, _, _, _, rfl⟩ := retire_eq_next hr
    rfl

theorem exec_idleSettled {i : Instr} {s t : State} (h : exec i s = .next t) (hi : s.idle = false)
    (hw : s.mode1Wrote = false) : IdleSettled t := by
  intro ht
  by_cases hc : i = .idle
  · subst hc
    obtain ⟨hd, hm⟩ := execIdle_settled h
    exact ⟨hd, hm.trans hw⟩
  · rw [exec_idle hc h, hi] at ht
    cases ht

theorem exec_controlInv {i : Instr} {s t : State} (h : exec i s = .next t) (hs : ControlInv s) (hi : s.idle = false)
    (hw : s.mode1Wrote = false) : ControlInv t := by
  obtain ⟨r, m, _, p⟩ := hs
  exact ⟨exec_reservedClear h r, exec_modeSettled h m, exec_idleSettled h hi hw, (exec_timexp h).trans_le p⟩

theorem takeInterrupt_controlInv {n : Interrupt} {s t : State} (h : takeInterrupt n s = .next t) (hs : ControlInv s) :
    ControlInv t := by
  obtain ⟨r, m, _, p⟩ := hs
  have hr := takeInterrupt_reservedClear h r
  obtain ⟨_, u, rfl | ⟨_, rfl⟩, rfl⟩ := takeInterrupt_eq_next h
  · exact ⟨hr, m, nofun, p⟩
  · exact ⟨hr, nofun, nofun, p⟩

theorem agents_controlInv {s : State} (hs : ControlInv s) : ControlInv (agents s) := by
  refine (agentEffects_agents s).preserves (fun a b h ha => ?_) hs
  obtain ⟨r, m, i, p⟩ := id ha
  cases h with
  | latch hn => exact ⟨AgentEffect.reservedClear (.latch hn) r, m, i, p⟩
  | pulse hk => exact ⟨r, m, i, hk.elim (fun h => h.trans p) fun h => h.le⟩
  | _ => exact ha

theorem settled_controlInv {s : State} (hs : ControlInv s) : ControlInv (settled s) := by
  obtain ⟨r, m, i, p⟩ := hs
  exact ⟨settled_reservedClear r, settled_modeSettled m, fun hi => ⟨(i hi).1, rfl⟩, p⟩

end Sys2Proof.Machine

namespace Sys2Proof.Safety
open Sys2Proof.Machine

/-- Settles O54: the agents keep the invariant, and so does each case of the core's step; an instruction runs awake, with MODE1
settled. -/
theorem controlInvariantKept : Obligations.ControlInvariantKept := by
  intro s t hs h
  have ha := agents_controlInv hs
  obtain ⟨n, _, ht⟩ | ⟨_, rfl⟩ | ⟨i, wait, _, hi, he⟩ := step_eq_next h
  · exact takeInterrupt_controlInv ht ha
  · exact ha
  · exact exec_controlInv he (settled_controlInv (s := { agents s with irqWait := wait }) ha) hi rfl

end Sys2Proof.Safety
end

section
/-! CERTIFICATE. What instructions leave unchanged: data registers, DAG registers, system registers, flags and stacks. Each frame is
a case split over the primitive effects (`Effect`), carried to the instruction by `exec_keeps` or
`exec_preserves_of_place`. -/

namespace Sys2Proof.Machine
open Sys2Proof.Safety

/-! ### The place and the selection -/

theorem Effect.mode1Act {i : Instr} {s t : State} (h : Effect i s t) : t.mode1Act = s.mode1Act := by
  cases h <;> rfl

/-- What every primitive effect leaves under a selection of MODE1, the instruction leaves under it. -/
theorem exec_keeps_selected {α : Type} {i : Instr} {sel : State → Bool} {v : Bool} (f : State → α)
    (hsel : ∀ a b : State, b.mode1Act = a.mode1Act → sel b = sel a) (hf : ∀ a b, Effect i a b → sel a = v → f b = f a)
    (hr : ∀ a pc dly loops stack, f { a with pc := pc, dly := dly, loopStack := loops, pcStack := stack } = f a)
    {s t : State} (h : exec i s = .next t) (hs : sel s = v) : f t = f s := by
  have place : ∀ a pc dly loops stack,
      sel { a with pc := pc, dly := dly, loopStack := loops, pcStack := stack } = sel a := fun a _ _ _ _ => hsel a _ rfl
  exact (exec_preserves_of_place (P := fun x => sel x = v ∧ f x = f s)
    (fun a b hab ha => ⟨(hsel a b hab.mode1Act).trans ha.1, (hf a b hab ha.1).trans ha.2⟩)
    (fun _ _ _ _ _ ha => ⟨(place ..).trans ha.1, (hr ..).trans ha.2⟩) h ⟨hs, rfl⟩).2

/-- An instruction that may stand in a delay slot keeps its place and the interrupts in service until it ends. -/
theorem Effect.samePlace {i : Instr} (hb : barredFromSlots i = false) {s t : State} (h : Effect i s t) :
    SamePlace s t ∧ t.isrv = s.isrv := by
  cases h
  case call hb' _ | ret hb' _ | serviceEnd hb' _ _ | serviceClear hb' _ | loopAbort hb' _ _ | loopStart hb' _ _ _ _ =>
    rw [hb] at hb'
    cases hb'
  all_goals exact ⟨⟨rfl, rfl, rfl, rfl⟩, rfl⟩

theorem Effects.samePlace {i : Instr} (hb : barredFromSlots i = false) {s t : State} (h : Effects i s t) :
    SamePlace s t ∧ t.isrv = s.isrv := by
  refine h.preserves (P := fun x => SamePlace s x ∧ x.isrv = s.isrv) (fun a b hab ha => ?_) ⟨⟨rfl, rfl, rfl, rfl⟩, rfl⟩
  obtain ⟨⟨h1, h2, h3, h4⟩, h5⟩ := ha
  obtain ⟨⟨e1, e2, e3, e4⟩, e5⟩ := hab.samePlace hb
  exact ⟨⟨e1.trans h1, e2.trans h2, e3.trans h3, e4.trans h4⟩, e5.trans h5⟩

/-- The end of an instruction changes the sequencer's stacks only at the innermost loop's end. -/
theorem retire_stacks {y : Yield} {s t : State} (h : retire y s = .next t) (hn : ¬ EndsInnermost s) :
    t.pcStack = s.pcStack ∧ t.loopStack = s.loopStack := by
  have hl : s.atLoopEnd = false := by
    simpa only [Bool.not_eq_true] using mt atLoopEnd_iff_endsInnermost.1 hn
  unfold retire at h
  split at h
  · split at h
    · cases h
    · split at h <;> cases h <;> exact ⟨rfl, rfl⟩
  · split at h
    · cases h
      exact ⟨rfl, rfl⟩
    · cases h
      exact ⟨rfl, rfl⟩
    · rw [hl] at h
      cases h
      exact ⟨rfl, rfl⟩

/-! ### Data registers -/

theorem setR_ne {k n : DReg} (hk : k ≠ n) (v : Word) (s : State) :
    (setR k v s).regs[n] = s.regs[n] ∧ (setR k v s).regsAlt[n] = s.regsAlt[n] := by
  have hv : k.val ≠ n.val := fun h => hk (Fin.ext h)
  unfold setR
  dsimp only
  constructor <;> split <;> simp [Vector.getElem_set_ne _ _ hv]

/-- A write of a data register leaves the copy of every register that MODE1 does not select (10_state R12). -/
theorem setR_unselected (k n : DReg) (v : Word) (s : State) :
    (altData s n = true → (setR k v s).regs[n] = s.regs[n]) ∧
      (altData s n = false → (setR k v s).regsAlt[n] = s.regsAlt[n]) := by
  by_cases hk : k = n
  · subst hk
    rw [altData_eq]
    exact ⟨fun ha => by simp [setR, ha], fun ha => by simp [setR, ha]⟩
  · exact ⟨fun _ => (setR_ne hk v s).1, fun _ => (setR_ne hk v s).2⟩

theorem exec_dreg_frame {i : Instr} {s t : State} {n : DReg} (h : exec i s = .next t) (hn : n ∉ dregsWritten i) :
    (t.regs[n], t.regsAlt[n]) = (s.regs[n], s.regsAlt[n]) := by
  refine exec_keeps (fun x => (x.regs[n], x.regsAlt[n])) (fun a b hab => ?_) (fun _ _ _ _ _ => rfl) h
  cases hab with
  | dreg hk =>
    obtain ⟨h1, h2⟩ := setR_ne (n := n) (fun e => hn (e ▸ hk)) _ a
    exact Prod.ext h1 h2
  | _ => rfl

/-- The copy of a data register that MODE1 does not select is left by every instruction (10_state R12). -/
theorem exec_dreg_unselected {i : Instr} {s t : State} (n : DReg) (h : exec i s = .next t) :
    (altData s n = true → t.regs[n] = s.regs[n]) ∧ (altData s n = false → t.regsAlt[n] = s.regsAlt[n]) := by
  have effect : ∀ a b, Effect i a b → (altData a n = true → b.regs[n] = a.regs[n]) ∧
      (altData a n = false → b.regsAlt[n] = a.regsAlt[n]) := by
    intro a b hab
    cases hab with
    | dreg => exact setR_unselected _ n _ a
    | _ => exact ⟨fun _ => rfl, fun _ => rfl⟩
  have sel : ∀ a b : State, b.mode1Act = a.mode1Act → altData b n = altData a n := fun a b h => by rw [altData, h, altData]
  exact ⟨exec_keeps_selected (·.regs[n]) sel (fun a b hab => (effect a b hab).1) (fun _ _ _ _ _ => rfl) h,
    exec_keeps_selected (·.regsAlt[n]) sel (fun a b hab => (effect a b hab).2) (fun _ _ _ _ _ => rfl) h⟩

/-! ### DAG registers -/

section
variable {s : State} {k : Fin 16} {d : DagRegs} (hd : ∀ j, j ≠ k → dagEntry d j = dagEntry (s.dagOf k) j)
include hd

theorem setDag_ne {n : Fin 16} (hn : n ≠ k) :
    dagEntry (setDag k d s).dag n = dagEntry s.dag n ∧ dagEntry (setDag k d s).dagAlt n = dagEntry s.dagAlt n := by
  have hd := hd n hn
  unfold State.dagOf at hd
  unfold setDag
  dsimp only
  split at hd <;> rename_i hs <;> simp [hs, hd]

/-- A write of DAG registers leaves the copy of every number that MODE1 does not select (10_state R15). -/
theorem setDag_unselected (n : Fin 16) :
    (altDag s n = true → dagEntry (setDag k d s).dag n = dagEntry s.dag n) ∧
      (altDag s n = false → dagEntry (setDag k d s).dagAlt n = dagEntry s.dagAlt n) := by
  by_cases hn : n = k
  · subst hn
    rw [altDag_eq]
    exact ⟨fun ha => by simp [setDag, ha], fun ha => by simp [setDag, ha]⟩
  · exact ⟨fun _ => (setDag_ne hd hn).1, fun _ => (setDag_ne hd hn).2⟩

end

theorem exec_dag_frame {i : Instr} {s t : State} {n : Fin 16} (h : exec i s = .next t) (hn : n ∉ dagWritten i) :
    (dagEntry t.dag n, dagEntry t.dagAlt n) = (dagEntry s.dag n, dagEntry s.dagAlt n) := by
  refine exec_keeps (fun x => (dagEntry x.dag n, dagEntry x.dagAlt n)) (fun a b hab => ?_) (fun _ _ _ _ _ => rfl) h
  cases hab with
  | dag hk hd =>
    obtain ⟨h1, h2⟩ := setDag_ne hd (n := n) (fun e => hn (e ▸ hk))
    exact Prod.ext h1 h2
  | _ => rfl

/-- The copy of a DAG number that MODE1 does not select is left by every instruction (10_state R15). -/
theorem exec_dag_unselected {i : Instr} {s t : State} (n : Fin 16) (h : exec i s = .next t) :
    (altDag s n = true → dagEntry t.dag n = dagEntry s.dag n) ∧
      (altDag s n = false → dagEntry t.dagAlt n = dagEntry s.dagAlt n) := by
  have effect : ∀ a b, Effect i a b → (altDag a n = true → dagEntry b.dag n = dagEntry a.dag n) ∧
      (altDag a n = false → dagEntry b.dagAlt n = dagEntry a.dagAlt n) := by
    intro a b hab
    cases hab with
    | dag _ hd => exact setDag_unselected hd n
    | _ => exact ⟨fun _ => rfl, fun _ => rfl⟩
  have sel : ∀ a b : State, b.mode1Act = a.mode1Act → altDag b n = altDag a n := fun a b h => by rw [altDag, h, altDag]
  exact ⟨exec_keeps_selected (dagEntry ·.dag n) sel (fun a b hab => (effect a b hab).1) (fun _ _ _ _ _ => rfl) h,
    exec_keeps_selected (dagEntry ·.dagAlt n) sel (fun a b hab => (effect a b hab).2) (fun _ _ _ _ _ => rfl) h⟩

/-! ### System registers -/

/-- The system registers that nothing but an instruction's destination changes. -/
def heldUreg (u : UReg) (s : State) : Word :=
  match u with
  | .tcount => s.tcount
  | .tperiod => s.tperiod
  | .lcntr => s.lcntr
  | .laddr => s.laddr
  | .mode2 => s.mode2
  | .mmask => s.mmask
  | .imask => s.imask
  | .lirptl => s.lirptl
  | .ustat1 => s.ustat1
  | _ => 0

theorem Effect.heldUreg {i : Instr} {u : UReg} (hu : uregDest i ≠ some u) {s t : State} (h : Effect i s t) :
    heldUreg u t = heldUreg u s := by
  cases h
  case tcount hd | tperiod hd | lcntr hd | laddr hd | mmask hd | ustat1 hd =>
    cases u <;> first | rfl | exact absurd hd hu
  case mode2 hd _ | imask hd _ | lirptl hd _ => cases u <;> first | rfl | exact absurd hd hu
  all_goals cases u <;> rfl

/-- A system register that is not the instruction's destination is left by it. -/
theorem exec_heldUreg {i : Instr} {s t : State} (h : exec i s = .next t) (u : UReg) (hu : uregDest i ≠ some u) :
    heldUreg u t = heldUreg u s :=
  exec_keeps (heldUreg u) (fun _ _ => Effect.heldUreg hu) (fun _ _ _ _ _ => by cases u <;> rfl) h

/-- The word `x` has the bits of `w` and, under `m`, no other. -/
def LatchedOutside (m w x : Word) : Prop := w &&& x = w ∧ x &&& m = w &&& m

theorem LatchedOutside.or {m w x : Word} (h : LatchedOutside m w x) {y : Word} (hy : y &&& m = 0) :
    LatchedOutside m w (x ||| y) := by
  obtain ⟨h1, h2⟩ := h
  refine ⟨?_, ?_⟩
  · apply BitVec.eq_of_getLsbD_eq
    intro j hj
    have := congrArg (·.getLsbD j) h1
    simp only [BitVec.getLsbD_and, BitVec.getLsbD_or] at this ⊢
    cases hw : w.getLsbD j <;> simp_all
  · rw [BitVec.and_comm, BitVec.and_or_distrib_left, BitVec.and_comm m x, BitVec.and_comm m y, hy, h2]
    exact BitVec.or_zero

theorem pcPushed_irptl {m w : Word} {a : PAddr} {tag : PcTag} {s : State} (hm : 0x00000008 &&& m = 0)
    (h : LatchedOutside m w s.irptl) : LatchedOutside m w (pcPushed a tag s).irptl := by
  unfold pcPushed
  dsimp only
  split
  · exact h.or hm
  · exact h

/-- An instruction latches only the interrupts of stacks, wraps and operations, and clears none (60_exceptions R250). -/
theorem exec_irptl {i : Instr} (hi : uregDest i ≠ some .irptl) {s t : State} (h : exec i s = .next t) :
    LatchedOutside 0xF84FFFF7 s.irptl t.irptl := by
  have hwrap : ∀ n, wrapBit n &&& 0xF84FFFF7 = 0 := by decide
  have hflags : ∀ l : BitVec 4, (l.setWidth 32 <<< 23 : Word) &&& 0xF84FFFF7 = 0 := by decide
  refine exec_preserves_of_place (P := fun x => LatchedOutside 0xF84FFFF7 s.irptl x.irptl) (fun a b hab ha => ?_)
    (fun _ _ _ _ _ ha => ha) h ⟨BitVec.and_self, rfl⟩
  cases hab with
  | wrap => exact ha.or (hwrap _)
  | flags => exact ha.or (hflags _)
  | irptl hu => exact absurd hu hi
  | call => exact pcPushed_irptl (by decide) ha
  | loopStart => exact pcPushed_irptl (a := a.pc + 1) (tag := .loop) (by decide) ha
  | _ => exact ha

theorem exec_statusStack {i : Instr} (hi : ofStatusStack i = false) {s t : State} (h : exec i s = .next t) :
    t.statusStack = s.statusStack := by
  refine exec_keeps _ (fun a b hab => ?_) (fun _ _ _ _ _ => rfl) h
  cases hab
  case statusPush hs _ | statusPop hs _ _ =>
    rw [hi] at hs
    cases hs
  all_goals rfl

theorem exec_mode1 {i : Instr} (hi : ofStatusStack i = false) (hu : uregDest i ≠ some .mode1) {s t : State}
    (h : exec i s = .next t) : (t.mode1, t.mode1Wrote) = (s.mode1, s.mode1Wrote) := by
  refine exec_keeps (fun x => (x.mode1, x.mode1Wrote)) (fun a b hab => ?_) (fun _ _ _ _ _ => rfl) h
  cases hab
  case mode1 hd _ => exact absurd hd hu
  case statusPush hs _ | statusPop hs _ _ =>
    rw [hi] at hs
    cases hs
  all_goals rfl

/-! ### ASTAT, MR -/

/-- Bits outside a mask are not merged. -/
theorem mergeBits_outside {m k : Word} (hm : ~~~m &&& k = k) (hk : m &&& k = 0) (a b : Word) :
    mergeBits m a b &&& k = a &&& k := by
  unfold mergeBits
  rw [BitVec.and_comm, BitVec.and_or_distrib_left, BitVec.and_comm k, BitVec.and_comm k, BitVec.and_assoc, BitVec.and_assoc,
    hm, hk]
  exact (congrArg (a &&& k ||| ·) BitVec.and_zero).trans BitVec.or_zero

section
variable {i : Instr} {s t : State} (h : exec i s = .next t) (hs : ofStatusStack i = false) (hu : uregDest i ≠ some .astat)
  (ht : ofBitTest i = false)
include h hs hu ht

/-- An operation changes ASTAT's arithmetic flags alone (10_state R34, log 31). -/
theorem exec_astat : t.astat &&& 0x00FFC000 = s.astat &&& 0x00FFC000 := by
  refine exec_keeps (fun x => x.astat &&& 0x00FFC000) (fun a b hab => ?_) (fun _ _ _ _ _ => rfl) h
  cases hab
  case flags => exact mergeBits_outside (by decide) (by decide) _ _
  case astat hd => exact absurd hd hu
  case bitTest hb =>
    rw [ht] at hb
    cases hb
  case statusPop hb _ _ =>
    rw [hs] at hb
    cases hb
  all_goals rfl

theorem exec_astat_of_no_operation (hc : ∀ c ∈ operations i, c = .none) : t.astat = s.astat := by
  refine exec_keeps _ (fun a b hab => ?_) (fun _ _ _ _ _ => rfl) h
  cases hab
  case flags ho =>
    obtain ⟨c, hm, hn⟩ := ho
    exact absurd (hc c hm) hn
  case astat hd => exact absurd hd hu
  case bitTest hb =>
    rw [ht] at hb
    cases hb
  case statusPop hb _ _ =>
    rw [hs] at hb
    cases hb
  all_goals rfl

end

theorem exec_mr {i : Instr} (hc : ∀ c ∈ operations i, c = .none) {s t : State} (h : exec i s = .next t) :
    (t.mr, t.mrAlt) = (s.mr, s.mrAlt) := by
  refine exec_keeps (fun x => (x.mr, x.mrAlt)) (fun a b hab => ?_) (fun _ _ _ _ _ => rfl) h
  cases hab with
  | mr ho =>
    obtain ⟨c, hm, hn⟩ := ho
    exact absurd (hc c hm) hn
  | _ => rfl

/-- The copy of MR that MODE1 does not select is left by every instruction (10_state R13). -/
theorem exec_mr_unselected {i : Instr} {s t : State} (h : exec i s = .next t) :
    (altMr s = true → t.mr = s.mr) ∧ (altMr s = false → t.mrAlt = s.mrAlt) := by
  have sel : ∀ a b : State, b.mode1Act = a.mode1Act → altMr b = altMr a := fun a b h => by rw [altMr, h, altMr]
  have effect : ∀ a b, Effect i a b → (altMr a = true → b.mr = a.mr) ∧ (altMr a = false → b.mrAlt = a.mrAlt) := by
    intro a b hab
    cases hab with
    | mr =>
      rw [altMr_eq]
      exact ⟨fun ha => by simp [setMr, ha], fun ha => by simp [setMr, ha]⟩
    | _ => exact ⟨fun _ => rfl, fun _ => rfl⟩
  exact ⟨exec_keeps_selected (·.mr) sel (fun a b hab => (effect a b hab).1) (fun _ _ _ _ _ => rfl) h,
    exec_keeps_selected (·.mrAlt) sel (fun a b hab => (effect a b hab).2) (fun _ _ _ _ _ => rfl) h⟩

/-! ### Stacks, agents' fields -/

/-- An instruction that may stand in a delay slot leaves the interrupts in service, and away from the innermost loop's end the
sequencer's stacks. -/
theorem exec_stacks {i : Instr} (hb : barredFromSlots i = false) {s t : State} (h : exec i s = .next t) :
    t.isrv = s.isrv ∧ (¬ EndsInnermost s → t.pcStack = s.pcStack ∧ t.loopStack = s.loopStack) := by
  obtain ⟨_, _, s1, y, he, hr⟩ := exec_eq_next h
  obtain ⟨hp, hi⟩ := he.samePlace hb
  refine ⟨?_, fun hn => ?_⟩
  · obtain ⟨_, _, _, _, rfl⟩ := retire_eq_next hr
    exact hi
  · obtain ⟨h1, h2⟩ := retire_stacks hr (by rwa [EndsInnermost, hp.loopStack, hp.pc])
    exact ⟨h1.trans hp.pcStack, h2.trans hp.loopStack⟩

/-- What no instruction changes: the MODE1 value in force, and the fields of the agents and of the launch. -/
def outerFields (s : State) :=
  (s.mode1Act, s.timexp, s.flagPins, s.env, s.cycle, s.irqWait, s.memMap, s.noBoot)

theorem exec_outerFields {i : Instr} {s t : State} (h : exec i s = .next t) : outerFields t = outerFields s :=
  exec_keeps outerFields (fun a b hab => by cases hab <;> rfl) (fun _ _ _ _ _ => rfl) h

end Sys2Proof.Machine

namespace Sys2Proof.Safety
open Sys2Proof.Machine

/-- Settles O47. -/
theorem dataRegisterFrame : Obligations.DataRegisterFrame := by
  intro i s t n h
  exact ⟨fun hn => Prod.ext_iff.1 (exec_dreg_frame h hn), exec_dreg_unselected n h⟩

/-- Settles O48. -/
theorem dagRegisterFrame : Obligations.DagRegisterFrame := by
  intro i s t n h
  exact ⟨fun hn => Prod.ext_iff.1 (exec_dag_frame h hn), exec_dag_unselected n h⟩

/-- Settles O49. -/
theorem systemRegisterFrame : Obligations.SystemRegisterFrame := by
  intro i s t h
  have held := exec_heldUreg h
  have status : ofStatusStack i = false →
      t.statusStack = s.statusStack ∧ (uregDest i ≠ some .mode1 → t.mode1 = s.mode1 ∧ t.mode1Wrote = s.mode1Wrote) ∧
      (uregDest i ≠ some .astat → ofBitTest i = false →
        t.astat &&& 0x00FFC000 = s.astat &&& 0x00FFC000 ∧ ((∀ c ∈ operations i, c = .none) → t.astat = s.astat)) :=
    fun hs => ⟨exec_statusStack hs h, fun hu => Prod.ext_iff.1 (exec_mode1 hs hu h),
      fun hu ht => ⟨exec_astat h hs hu ht, exec_astat_of_no_operation h hs hu ht⟩⟩
  obtain ⟨mr, mrAlt⟩ := exec_mr_unselected h
  have outer := exec_outerFields h
  simp only [outerFields, Prod.mk.injEq] at outer
  exact ⟨held .mode2, held .mmask, held .imask, held .lirptl, held .ustat1, held .tcount, held .tperiod, held .lcntr,
    held .laddr, fun hi => exec_irptl hi h, status, fun hc => Prod.ext_iff.1 (exec_mr hc h), mr, mrAlt,
    fun hi => exec_idle hi h, fun hb => exec_stacks hb h, outer⟩

end Sys2Proof.Safety
end

section
/-! CERTIFICATE. The copies that MODE1 does not select are isolated: every operation gives, on the state with other contents in
them (`withUnselected`), the outcome that it gives on the state, with the same other contents. One lemma an operation; an
instruction follows its definition through them. -/

namespace Sys2Proof.Machine
open Sys2Proof.Safety

/-! ### Outcomes -/

/-- `f` on what the outcome gives. -/
def mapOutcome {α β : Type} (f : α → β) (x : Host.Outcome α Fault Refusal) : Host.Outcome β Fault Refusal :=
  andThen x fun a => .next (f a)

theorem mapNext_eq_mapOutcome (f : State → State) (x : Result) : mapNext f x = mapOutcome f x := by
  cases x <;> rfl

theorem andThen_map {α α' β β' : Type} {p : α → α'} {q : β → β'} {x : Host.Outcome α Fault Refusal}
    {x' : Host.Outcome α' Fault Refusal} {f : α → Host.Outcome β Fault Refusal} {f' : α' → Host.Outcome β' Fault Refusal}
    (hx : x' = mapOutcome p x) (hf : ∀ a, f' (p a) = mapOutcome q (f a)) : andThen x' f' = mapOutcome q (andThen x f) := by
  subst hx
  cases x with
  | next a => exact hf a
  | fault | refused => rfl

theorem andThen_map_same {α β β' : Type} {q : β → β'} {x x' : Host.Outcome α Fault Refusal}
    {f : α → Host.Outcome β Fault Refusal} {f' : α → Host.Outcome β' Fault Refusal} (hx : x' = x)
    (hf : ∀ a, f' a = mapOutcome q (f a)) : andThen x' f' = mapOutcome q (andThen x f) := by
  subst hx
  cases x' with
  | next a => exact hf a
  | fault | refused => rfl

theorem ite_map {α β : Type} {q : α → β} {c : Prop} [Decidable c] {x y : Host.Outcome α Fault Refusal}
    {x' y' : Host.Outcome β Fault Refusal} (hx : x' = mapOutcome q x) (hy : y' = mapOutcome q y) :
    (if c then x' else y') = mapOutcome q (if c then x else y) := by
  split
  · exact hx
  · exact hy

/-! ### Picked registers -/

/-- `picked`, irreducible: comparing two states does not compute the picks. -/
@[irreducible] def bank (sel : Fin 16 → Bool) (alt prim : Vector Word 16) : Vector Word 16 := picked sel alt prim

/-- `pickedDag` of banks. -/
def bankDag (sel : Fin 16 → Bool) (alt prim : DagRegs) : DagRegs :=
  { i := bank sel alt.i prim.i, m := bank sel alt.m prim.m, l := bank sel alt.l prim.l, b := bank sel alt.b prim.b }

/-- `withUnselected`, with its picks as banks. -/
def rebanked (r : Vector Word 16) (d : DagRegs) (m : MrWord) (s : State) : State :=
  { s with
    regs := bank (altData s) r s.regs
    regsAlt := bank (altData s) s.regsAlt r
    dag := bankDag (altDag s) d s.dag
    dagAlt := bankDag (altDag s) s.dagAlt d
    mr := if altMr s then m else s.mr
    mrAlt := if altMr s then s.mrAlt else m }

theorem withUnselected_eq_rebanked : withUnselected = rebanked := by
  funext r d m s
  simp only [withUnselected, pickedDag, rebanked, bankDag, bank]

theorem bank_alt {sel : Fin 16 → Bool} {n : Fin 16} (hn : sel n = true) (alt prim : Vector Word 16) :
    (bank sel alt prim)[n] = alt[n] := by
  simp [bank, picked, hn]

theorem bank_prim {sel : Fin 16 → Bool} {n : Fin 16} (hn : sel n = false) (alt prim : Vector Word 16) :
    (bank sel alt prim)[n] = prim[n] := by
  simp [bank, picked, hn]

theorem bank_set_alt {sel : Fin 16 → Bool} {n : Fin 16} (hn : sel n = true) (alt prim : Vector Word 16) (v : Word) :
    bank sel (alt.set n v) prim = (bank sel alt prim).set n v := by
  apply Vector.ext
  intro j hj
  by_cases hk : n.val = j
  · subst hk
    simp [bank, picked, hn]
  · simp [bank, picked, Vector.getElem_set_ne _ _ hk]

theorem bank_set_prim {sel : Fin 16 → Bool} {n : Fin 16} (hn : sel n = false) (alt prim : Vector Word 16) (v : Word) :
    bank sel alt (prim.set n v) = (bank sel alt prim).set n v := by
  apply Vector.ext
  intro j hj
  by_cases hk : n.val = j
  · subst hk
    simp [bank, picked, hn]
  · simp [bank, picked, Vector.getElem_set_ne _ _ hk]

/-- The change of DAG registers touches number `n` alone: it goes through a pick from either copy. -/
def ActsAt (n : Fin 16) (g : DagRegs → DagRegs) : Prop :=
  ∀ (sel : Fin 16 → Bool) (alt prim : DagRegs),
    (sel n = true → bankDag sel (g alt) prim = g (bankDag sel alt prim)) ∧
    (sel n = false → bankDag sel alt (g prim) = g (bankDag sel alt prim))

section
variable {r : Vector Word 16} {d : DagRegs} {m : MrWord} {s : State}

/-! ### Reads -/

theorem getR_isolated (n : DReg) : (rebanked r d m s).getR n = s.getR n := by
  rw [getR_eq, getR_eq]
  show (if altData s n then (bank (altData s) s.regsAlt r)[n] else (bank (altData s) r s.regs)[n]) = _
  rw [dataRead]
  cases hn : altData s n with
  | true => exact bank_alt hn _ _
  | false => exact bank_prim hn _ _

theorem dagOf_isolated (n : Fin 16) :
    ((rebanked r d m s).dagOf n).i[n] = (s.dagOf n).i[n] ∧ ((rebanked r d m s).dagOf n).m[n] = (s.dagOf n).m[n] ∧
      ((rebanked r d m s).dagOf n).l[n] = (s.dagOf n).l[n] ∧
      ((rebanked r d m s).dagOf n).b[n] = (s.dagOf n).b[n] := by
  have hw : (rebanked r d m s).dagOf n =
      if altDag s n then bankDag (altDag s) s.dagAlt d else bankDag (altDag s) d s.dag := dagOf_eq _ n
  rw [hw, dagOf_eq, dagRead]
  cases hn : altDag s n with
  | true => exact ⟨bank_alt hn _ _, bank_alt hn _ _, bank_alt hn _ _, bank_alt hn _ _⟩
  | false => exact ⟨bank_prim hn _ _, bank_prim hn _ _, bank_prim hn _ _, bank_prim hn _ _⟩

theorem getI_isolated (n : Fin 16) : (rebanked r d m s).getI n = s.getI n := (dagOf_isolated n).1
theorem getM_isolated (n : Fin 16) : (rebanked r d m s).getM n = s.getM n := (dagOf_isolated n).2.1
theorem getL_isolated (n : Fin 16) : (rebanked r d m s).getL n = s.getL n := (dagOf_isolated n).2.2.1
theorem getB_isolated (n : Fin 16) : (rebanked r d m s).getB n = s.getB n := (dagOf_isolated n).2.2.2

theorem getMr_isolated : (rebanked r d m s).getMr = s.getMr := by
  show (if altMr s then (if altMr s then s.mrAlt else m) else (if altMr s then m else s.mr)) = _
  unfold State.getMr
  rw [← altMr_eq]
  cases altMr s <;> rfl

theorem computeInput_isolated : (rebanked r d m s).computeInput = s.computeInput := by
  have hr : (rebanked r d m s).getR = s.getR := funext getR_isolated
  unfold State.computeInput
  rw [hr, getMr_isolated]
  rfl

theorem circular_isolated (n : Fin 16) : (rebanked r d m s).circular n = s.circular n := by
  unfold State.circular
  rw [getL_isolated]
  rfl

theorem postAddr_isolated (n : Fin 16) : (rebanked r d m s).postAddr n = s.postAddr n := by
  unfold State.postAddr
  rw [getI_isolated]
  rfl

theorem dagAddr_isolated (form : DagForm) (n : Fin 16) (k : Word) :
    (rebanked r d m s).dagAddr form n k = s.dagAddr form n k := by
  cases form with
  | post => exact postAddr_isolated n
  | pre =>
    show (rebanked r d m s).preModify n k = s.preModify n k
    unfold State.preModify
    rw [getI_isolated]
    rfl

theorem readUreg_isolated (u : UReg) : (rebanked r d m s).readUreg u = s.readUreg u := by
  cases u
  case r n => exact congrArg Host.Outcome.next (getR_isolated n)
  case i n => exact congrArg Host.Outcome.next (getI_isolated n)
  case m n => exact congrArg Host.Outcome.next (getM_isolated n)
  case l n => exact congrArg Host.Outcome.next (getL_isolated n)
  case b n => exact congrArg Host.Outcome.next (getB_isolated n)
  all_goals rfl

theorem indirectTarget_isolated (md ic : Fin 8) :
    (rebanked r d m s).indirectTarget md ic = s.indirectTarget md ic := by
  unfold State.indirectTarget
  rw [getI_isolated, getM_isolated]
  rfl

theorem memRead_isolated (bus : Bus) (a : Word) : memRead (rebanked r d m s) bus a = memRead s bus a := rfl

/-! ### Register writes -/

theorem setR_isolated (n : DReg) (v : Word) : setR n v (rebanked r d m s) = rebanked r d m (setR n v s) := by
  rw [setR_eq, setR_eq, dataWritten, dataWritten]
  have hsel : altData (rebanked r d m s) n = altData s n := rfl
  rw [hsel]
  cases hn : altData s n with
  | true =>
    show { rebanked r d m s with regsAlt := (bank (altData s) s.regsAlt r).set n v } = _
    rw [← bank_set_alt hn]
    rfl
  | false =>
    show { rebanked r d m s with regs := (bank (altData s) r s.regs).set n v } = _
    rw [← bank_set_prim hn]
    rfl

theorem setDag_isolated {n : Fin 16} {g : DagRegs → DagRegs} (hg : ActsAt n g) :
    setDag n (g ((rebanked r d m s).dagOf n)) (rebanked r d m s) =
      rebanked r d m (setDag n (g (s.dagOf n)) s) := by
  rw [setDag_eq, setDag_eq, dagReplaced, dagReplaced, dagOf_eq, dagOf_eq, dagRead, dagRead]
  have hsel : altDag (rebanked r d m s) n = altDag s n := rfl
  rw [hsel]
  cases hn : altDag s n with
  | true =>
    show { rebanked r d m s with dagAlt := g (bankDag (altDag s) s.dagAlt d) } = _
    rw [← (hg (altDag s) s.dagAlt d).1 hn]
    rfl
  | false =>
    show { rebanked r d m s with dag := g (bankDag (altDag s) d s.dag) } = _
    rw [← (hg (altDag s) d s.dag).2 hn]
    rfl

theorem actsAt_set (n : Fin 16) (v : Word) :
    ActsAt n (fun e => { e with i := e.i.set n v }) ∧ ActsAt n (fun e => { e with m := e.m.set n v }) ∧
      ActsAt n (fun e => { e with l := e.l.set n v }) ∧
      ActsAt n (fun e => { e with b := e.b.set n v, i := e.i.set n v }) := by
  refine ⟨?_, ?_, ?_, ?_⟩ <;> intro sel alt prim <;>
    exact ⟨fun h => by simp only [bankDag, bank_set_alt h], fun h => by simp only [bankDag, bank_set_prim h]⟩

theorem setI_isolated (n : Fin 16) (v : Word) : setI n v (rebanked r d m s) = rebanked r d m (setI n v s) :=
  setDag_isolated (actsAt_set n v).1

theorem setM_isolated (n : Fin 16) (v : Word) : setM n v (rebanked r d m s) = rebanked r d m (setM n v s) :=
  setDag_isolated (actsAt_set n v).2.1

theorem setL_isolated (n : Fin 16) (v : Word) : setL n v (rebanked r d m s) = rebanked r d m (setL n v s) :=
  setDag_isolated (actsAt_set n v).2.2.1

theorem setB_isolated (n : Fin 16) (v : Word) : setB n v (rebanked r d m s) = rebanked r d m (setB n v s) :=
  setDag_isolated (actsAt_set n v).2.2.2

theorem setMr_isolated (v : MrWord) : setMr v (rebanked r d m s) = rebanked r d m (setMr v s) := by
  show { rebanked r d m s with
    mr := if altMr s then (if altMr s then m else s.mr) else v
    mrAlt := if altMr s then v else (if altMr s then s.mrAlt else m) } =
    { rebanked r d m s with
      mr := if altMr s then m else (if altMr s then s.mr else v)
      mrAlt := if altMr s then (if altMr s then v else s.mrAlt) else m }
  cases altMr s <;> rfl

theorem applyCompute_isolated (slot : Config.Slot) (c : Compute) (inp : Config.ComputeInput) :
    applyCompute slot c inp (rebanked r d m s) = rebanked r d m (applyCompute slot c inp s) := by
  have hfold : ∀ (ds : List DReg) (s : State),
      ds.foldl (fun t d => setR d (Config.computeValue slot c inp d) t) (rebanked r d m s) =
        rebanked r d m (ds.foldl (fun t d => setR d (Config.computeValue slot c inp d) t) s) := by
    intro ds
    induction ds with
    | nil => exact fun _ => rfl
    | cons d' ds ih =>
      intro s
      rw [List.foldl_cons, List.foldl_cons, setR_isolated]
      exact ih _
  have hc : computeWrites slot c inp (rebanked r d m s) = rebanked r d m (computeWrites slot c inp s) := by
    rw [computeWrites_eq, computeWrites_eq, hfold, setMr_isolated]
    rfl
  cases c
  case none => rfl
  all_goals exact hc

theorem writeUreg_isolated (u : UReg) (v : Word) :
    writeUreg u v (rebanked r d m s) = mapOutcome (rebanked r d m) (writeUreg u v s) := by
  cases u
  case r n => exact congrArg Host.Outcome.next (setR_isolated n v)
  case i n => exact congrArg Host.Outcome.next (setI_isolated n v)
  case m n => exact congrArg Host.Outcome.next (setM_isolated n v)
  case l n => exact congrArg Host.Outcome.next (setL_isolated n v)
  case b n => exact congrArg Host.Outcome.next (setB_isolated n v)
  case mode1 | mode2 | irptl | imask | lirptl => exact ite_map rfl rfl
  all_goals rfl

theorem changeSreg_isolated (q : SReg) (f : Word → Word) :
    changeSreg q f (rebanked r d m s) = mapOutcome (rebanked r d m) (changeSreg q f s) := by
  cases q
  case mode1 | mode2 | irptl | imask | lirptl => exact ite_map rfl rfl
  all_goals rfl

theorem testSreg_isolated (q : SReg) (test : Word → Bool) :
    testSreg q test (rebanked r d m s) = mapOutcome (rebanked r d m) (testSreg q test s) :=
  andThen_map_same (by cases q <;> rfl) fun _ => rfl

/-! ### Moves -/

theorem modifyIndex_isolated (n : Fin 16) {k k' : Word} (hk : k' = k) :
    modifyIndex n k' (rebanked r d m s) = mapOutcome (rebanked r d m) (modifyIndex n k s) := by
  subst hk
  unfold modifyIndex
  dsimp only
  rw [circular_isolated, getB_isolated, getL_isolated, getI_isolated, setI_isolated, setI_isolated]
  refine ite_map (ite_map ?_ rfl) rfl
  split <;> rfl

theorem dagUpdate_isolated (form : DagForm) (n : Fin 16) (k : Word) :
    dagUpdate form n k (rebanked r d m s) = mapOutcome (rebanked r d m) (dagUpdate form n k s) := by
  cases form with
  | post => exact modifyIndex_isolated n rfl
  | pre => rfl

theorem memWrite_isolated (bus : Bus) (a v : Word) :
    memWrite bus a v (rebanked r d m s) = mapOutcome (rebanked r d m) (memWrite bus a v s) := by
  have hk : (rebanked r d m s).kindAt bus a = s.kindAt bus a := rfl
  unfold memWrite
  rw [hk]
  refine ite_map rfl ?_
  rcases s.kindAt bus a with _ | k
  · rfl
  · cases k <;> rfl

theorem storeMove_isolated {form : DagForm} {bus : Bus} {n : Fin 16} {k k' v v' : Word} {slot : Config.Slot} {c : Compute}
    (hk : k' = k) (hv : v' = v) :
    storeMove form bus n k' v' slot c (rebanked r d m s) =
      mapOutcome (rebanked r d m) (storeMove form bus n k v slot c s) := by
  subst hk hv
  unfold storeMove
  rw [computeInput_isolated, dagAddr_isolated]
  exact andThen_map (dagUpdate_isolated ..) fun _ => andThen_map (memWrite_isolated ..) fun _ =>
    congrArg Host.Outcome.next (applyCompute_isolated ..)

theorem loadMove_isolated {form : DagForm} {bus : Bus} {n : Fin 16} {k k' : Word} {u : UReg} {slot : Config.Slot} {c : Compute}
    (hk : k' = k) :
    loadMove form bus n k' u slot c (rebanked r d m s) =
      mapOutcome (rebanked r d m) (loadMove form bus n k u slot c s) := by
  subst hk
  unfold loadMove
  rw [computeInput_isolated, dagAddr_isolated]
  refine andThen_map (dagUpdate_isolated ..) fun s1 => andThen_map_same (memRead_isolated ..) fun v => ?_
  rw [applyCompute_isolated, writeUreg_isolated]

theorem dmMove_isolated (dir : Dir) (ia mb : Fin 8) (dr : DReg) (c : Compute) :
    dmMove dir ia mb dr c (rebanked r d m s) = mapOutcome (rebanked r d m) (dmMove dir ia mb dr c s) := by
  cases dir with
  | store => exact storeMove_isolated (getM_isolated _) (getR_isolated _)
  | load => exact loadMove_isolated (getM_isolated _)

theorem whenCond_isolated {c : CondCode} {x x' : Result} (hx : x' = mapOutcome (rebanked r d m) x) :
    whenCond c (rebanked r d m s) x' = mapOutcome (rebanked r d m) (whenCond c s x) :=
  ite_map hx rfl

theorem dualAccess_isolated (dir : Dir) (bus : Bus) {a a' v v' : Word} (ha : a' = a) (hv : v' = v) :
    dualAccess dir bus a' v' (rebanked r d m s) =
      mapOutcome (Prod.map id (rebanked r d m)) (dualAccess dir bus a v s) := by
  subst ha hv
  cases dir with
  | store => exact andThen_map (memWrite_isolated ..) fun _ => rfl
  | load => exact andThen_map_same rfl fun _ => rfl

theorem dualResult_isolated (dir : Dir) (n : DReg) (x : Word) :
    dualResult dir n x (rebanked r d m s) = rebanked r d m (dualResult dir n x s) := by
  cases dir with
  | store => rfl
  | load => exact setR_isolated n x

/-! ### Stacks -/

theorem pushPc_isolated (a : PAddr) (tag : PcTag) :
    pushPc a tag (rebanked r d m s) = mapOutcome (rebanked r d m) (pushPc a tag s) := by
  rw [pushPc_eq, pushPc_eq]
  exact ite_map rfl rfl

theorem popPc_isolated (tag : PcTag) :
    popPc tag (rebanked r d m s) = mapOutcome (Prod.map id (rebanked r d m)) (popPc tag s) := by
  unfold popPc
  have hp : (rebanked r d m s).pcStack = s.pcStack := rfl
  rw [hp]
  rcases s.pcStack with _ | ⟨e, rest⟩
  · rfl
  · exact ite_map rfl rfl

theorem pushStatus_isolated : pushStatus (rebanked r d m s) = mapOutcome (rebanked r d m) (pushStatus s) :=
  ite_map rfl rfl

theorem popStatus_isolated : popStatus (rebanked r d m s) = mapOutcome (rebanked r d m) (popStatus s) := by
  unfold popStatus
  have hp : (rebanked r d m s).statusStack = s.statusStack := rfl
  rw [hp]
  rcases s.statusStack with _ | ⟨e, rest⟩
  · rfl
  · exact ite_map rfl rfl

theorem returnFromInterrupt_isolated :
    returnFromInterrupt (rebanked r d m s) = mapOutcome (Prod.map id (rebanked r d m)) (returnFromInterrupt s) := by
  unfold returnFromInterrupt
  have hp : (rebanked r d m s).isrv = s.isrv := rfl
  rw [hp]
  rcases s.isrv with _ | ⟨n, rest⟩
  · rfl
  · exact andThen_map (popPc_isolated _) fun ⟨a, s1⟩ =>
      andThen_map (ite_map (popStatus_isolated (s := { s1 with isrv := rest })) rfl) fun _ => rfl

theorem clearInterrupt_isolated :
    clearInterrupt (rebanked r d m s) = mapOutcome (rebanked r d m) (clearInterrupt s) := by
  unfold clearInterrupt
  have hp : (rebanked r d m s).isrv = s.isrv := rfl
  rw [hp]
  cases s.isrv <;> rfl

theorem abortLoop_isolated : abortLoop (rebanked r d m s) = mapOutcome (rebanked r d m) (abortLoop s) := by
  unfold abortLoop
  have hp : (rebanked r d m s).loopStack = s.loopStack := rfl
  rw [hp]
  rcases s.loopStack with _ | ⟨e, rest⟩
  · rfl
  · exact andThen_map (popPc_isolated (s := { s with loopStack := rest }) _) fun _ => rfl

theorem startLoop_isolated (e : PAddr) (term : CondCode) (n : Word) :
    startLoop e term n (rebanked r d m s) = mapOutcome (rebanked r d m) (startLoop e term n s) :=
  ite_map rfl (ite_map rfl (andThen_map (pushPc_isolated ..) fun _ => ite_map rfl rfl))

theorem countedLoop_isolated (n : Word) (e : PAddr) :
    countedLoop n e (rebanked r d m s) = mapOutcome (rebanked r d m) (countedLoop n e s) :=
  ite_map rfl (andThen_map (startLoop_isolated ..) fun _ => rfl)

/-! ### Branches -/

theorem jumpTaken_isolated (a : PAddr) (db la ci : Bool) :
    jumpTaken a db la ci (rebanked r d m s) =
      mapOutcome (Prod.map (rebanked r d m) id) (jumpTaken a db la ci s) :=
  andThen_map (ite_map abortLoop_isolated rfl) fun _ => andThen_map (ite_map clearInterrupt_isolated rfl) fun _ => rfl

theorem callTaken_isolated (a : PAddr) (db : Bool) :
    callTaken a db (rebanked r d m s) = mapOutcome (Prod.map (rebanked r d m) id) (callTaken a db s) :=
  andThen_map (pushPc_isolated ..) fun _ => rfl

theorem rtsTaken_isolated (db lr : Bool) :
    rtsTaken db lr (rebanked r d m s) = mapOutcome (Prod.map (rebanked r d m) id) (rtsTaken db lr s) :=
  ite_map rfl (andThen_map (popPc_isolated _) fun _ => rfl)

theorem branchEffects_isolated {cond : CondCode} {clause : Clause} {x x' : Host.Outcome (State × Yield) Fault Refusal}
    (hx : x' = mapOutcome (Prod.map (rebanked r d m) id) x) :
    branchEffects cond clause (rebanked r d m s) x' =
      mapOutcome (Prod.map (rebanked r d m) id) (branchEffects cond clause s x) := by
  unfold branchEffects
  rw [computeInput_isolated, applyCompute_isolated]
  refine ite_map (andThen_map hx fun ⟨s1, y⟩ => ?_) rfl
  dsimp only [Prod.map]
  rw [applyCompute_isolated]
  rfl

theorem jumpElseMove_isolated (cond : CondCode) (a : PAddr) (c : Compute) (dir : Dir) (ia mb : Fin 8) (dr : DReg) :
    jumpElseMove cond a c dir ia mb dr (rebanked r d m s) =
      mapOutcome (Prod.map (rebanked r d m) id) (jumpElseMove cond a c dir ia mb dr s) :=
  ite_map rfl (andThen_map (dmMove_isolated ..) fun _ => rfl)

/-! ### The end of an instruction -/

theorem loopEnd_isolated : loopEnd (rebanked r d m s) = mapOutcome (rebanked r d m) (loopEnd s) := by
  unfold loopEnd
  have hl : (rebanked r d m s).loopStack = s.loopStack := rfl
  have hp : (rebanked r d m s).pcStack = s.pcStack := rfl
  rw [hl, hp]
  rcases s.loopStack with _ | ⟨e, rest⟩
  · rfl
  rcases s.pcStack with _ | ⟨p, below⟩
  · rfl
  exact ite_map rfl (ite_map (ite_map rfl rfl) (ite_map rfl rfl))

theorem retire_isolated (y : Yield) :
    retire y (rebanked r d m s) = mapOutcome (rebanked r d m) (retire y s) := by
  unfold retire
  have hd : (rebanked r d m s).dly = s.dly := rfl
  rw [hd]
  rcases s.dly with _ | ⟨left, target, byRti⟩
  · cases y with
    | noBranch => exact ite_map loopEnd_isolated rfl
    | branch | delayed => rfl
  · refine ite_map rfl ?_
    cases left <;> rfl

theorem run_isolated {k : FlowKind} {x x' : Host.Outcome (State × Yield) Fault Refusal}
    (hx : x' = mapOutcome (Prod.map (rebanked r d m) id) x) :
    run k (rebanked r d m s) x' = mapOutcome (rebanked r d m) (run k s x) :=
  ite_map rfl (ite_map rfl (ite_map rfl (andThen_map hx fun _ => retire_isolated _)))

theorem runPlain_isolated {k : FlowKind} {x x' : Result} (hx : x' = mapOutcome (rebanked r d m) x) :
    runPlain k (rebanked r d m s) x' = mapOutcome (rebanked r d m) (runPlain k s x) :=
  run_isolated (andThen_map hx fun _ => rfl)

theorem run_indirect_isolated {k : FlowKind} {md ic : Fin 8} {f f' : PAddr → Host.Outcome (State × Yield) Fault Refusal}
    (hf : ∀ a, f' a = mapOutcome (Prod.map (rebanked r d m) id) (f a)) :
    run k (rebanked r d m s) (andThen ((rebanked r d m s).indirectTarget md ic) f') =
      mapOutcome (rebanked r d m) (run k s (andThen (s.indirectTarget md ic) f)) :=
  run_isolated (andThen_map_same (indirectTarget_isolated ..) hf)

end

/-! ### Every instruction -/

theorem execComputeDualMove_isolated (r : Vector Word 16) (d : DagRegs) (m : MrWord) (s : State) (c : Compute) (dmDir : Dir)
    (ia mb : Fin 8) (d1 : DReg) (pmDir : Dir) (ic md : Fin 8) (d2 : DReg) :
    execComputeDualMove c dmDir ia mb d1 pmDir ic md d2 (rebanked r d m s) =
      mapOutcome (rebanked r d m) (execComputeDualMove c dmDir ia mb d1 pmDir ic md d2 s) := by
  refine runPlain_isolated (andThen_map (modifyIndex_isolated _ (getM_isolated _)) fun s1 =>
    andThen_map (modifyIndex_isolated _ (getM_isolated _)) fun s2 => ?_)
  rw [postAddr_isolated, postAddr_isolated, computeInput_isolated]
  refine ite_map rfl (andThen_map (dualAccess_isolated _ _ rfl (getR_isolated _)) fun ⟨x1, s3⟩ =>
    andThen_map (dualAccess_isolated _ _ rfl (getR_isolated _)) fun ⟨x2, s4⟩ => ?_)
  dsimp only [Prod.map, id]
  rw [applyCompute_isolated, dualResult_isolated, dualResult_isolated]
  rfl

theorem execRti_isolated (r : Vector Word 16) (d : DagRegs) (m : MrWord) (s : State) (cond : CondCode) (db : Bool)
    (clause : Clause) :
    execRti cond db clause (rebanked r d m s) = mapOutcome (rebanked r d m) (execRti cond db clause s) := by
  have hc : (rebanked r d m s).cond cond = s.cond cond := rfl
  refine run_isolated ?_
  rw [computeInput_isolated, applyCompute_isolated, hc]
  exact ite_map (andThen_map returnFromInterrupt_isolated fun _ => rfl) rfl

theorem exec_isolated (i : Instr) (r : Vector Word 16) (d : DagRegs) (m : MrWord) (s : State) :
    exec i (rebanked r d m s) = mapOutcome (rebanked r d m) (exec i s) := by
  cases i
  case computeDualMove => exact execComputeDualMove_isolated ..
  case ifCompute =>
    refine runPlain_isolated (whenCond_isolated ?_)
    rw [computeInput_isolated, applyCompute_isolated]
    rfl
  case storePostUreg | storePreUreg =>
    exact runPlain_isolated (whenCond_isolated (andThen_map_same (readUreg_isolated _) fun _ =>
      storeMove_isolated (getM_isolated _) rfl))
  case loadPostUreg | loadPreUreg => exact runPlain_isolated (whenCond_isolated (loadMove_isolated (getM_isolated _)))
  case storePostData6 | storePreData6 =>
    exact runPlain_isolated (whenCond_isolated (storeMove_isolated rfl (getR_isolated _)))
  case loadPostData6 | loadPreData6 => exact runPlain_isolated (whenCond_isolated (loadMove_isolated rfl))
  case moveUreg =>
    refine runPlain_isolated (whenCond_isolated (andThen_map_same (readUreg_isolated _) fun v => ?_))
    rw [computeInput_isolated, applyCompute_isolated, writeUreg_isolated]
  case shiftStorePost =>
    exact runPlain_isolated (whenCond_isolated (storeMove_isolated (getM_isolated _) (getR_isolated _)))
  case shiftLoadPost => exact runPlain_isolated (whenCond_isolated (loadMove_isolated (getM_isolated _)))
  case modifyReg =>
    refine runPlain_isolated (whenCond_isolated (andThen_map (modifyIndex_isolated _ (getM_isolated _)) fun s1 => ?_))
    rw [computeInput_isolated, applyCompute_isolated]
    rfl
  case storeDirect =>
    exact runPlain_isolated (andThen_map_same (readUreg_isolated _) fun _ => memWrite_isolated ..)
  case loadDirect =>
    exact runPlain_isolated (andThen_map_same (memRead_isolated ..) fun _ => writeUreg_isolated ..)
  case storePreData32 =>
    exact runPlain_isolated (andThen_map_same (readUreg_isolated _) fun _ => storeMove_isolated rfl rfl)
  case loadPreData32 => exact runPlain_isolated (loadMove_isolated rfl)
  case storePostImm => exact runPlain_isolated (storeMove_isolated (getM_isolated _) rfl)
  case loadImm => exact runPlain_isolated (writeUreg_isolated ..)
  case modifyImm => exact runPlain_isolated (modifyIndex_isolated _ rfl)
  case bitrev =>
    refine runPlain_isolated ?_
    rw [getI_isolated, setI_isolated]
    rfl
  case jumpDirect | jumpRel | jumpShort => exact run_isolated (branchEffects_isolated (jumpTaken_isolated ..))
  case callDirect | callRel | callShort => exact run_isolated (branchEffects_isolated (callTaken_isolated ..))
  case jumpInd => exact run_indirect_isolated fun _ => branchEffects_isolated (jumpTaken_isolated ..)
  case callInd => exact run_indirect_isolated fun _ => branchEffects_isolated (callTaken_isolated ..)
  case jumpIndMove => exact run_indirect_isolated fun _ => jumpElseMove_isolated ..
  case jumpShortMove => exact run_isolated (jumpElseMove_isolated ..)
  case rts => exact run_isolated (branchEffects_isolated (rtsTaken_isolated ..))
  case rti => exact execRti_isolated ..
  case doCountImm => exact runPlain_isolated (countedLoop_isolated ..)
  case doCountUreg =>
    exact runPlain_isolated (andThen_map_same (readUreg_isolated _) fun _ => countedLoop_isolated ..)
  case doUntil => exact runPlain_isolated (startLoop_isolated ..)
  case nop | idle => exact runPlain_isolated rfl
  case bitSet | bitClr | bitTgl => exact runPlain_isolated (changeSreg_isolated ..)
  case bitTst | bitXor => exact runPlain_isolated (testSreg_isolated ..)
  case pushSts => exact runPlain_isolated pushStatus_isolated
  case popSts => exact runPlain_isolated popStatus_isolated

end Sys2Proof.Machine

namespace Sys2Proof.Safety
open Sys2Proof.Machine

/-- Settles O50. -/
theorem alternateRegistersIsolated : Obligations.AlternateRegistersIsolated := by
  intro i s r d m
  rw [withUnselected_eq_rebanked, mapNext_eq_mapOutcome]
  exact exec_isolated i r d m s

end Sys2Proof.Safety
end

section
/-! CERTIFICATE. The state's writes and modes: a write of B, delayed branches, the latency of MODE1, the state after reset, where an
instruction may not stand, and which writes are refused. -/

namespace Sys2Proof.Machine
open Sys2Proof.Safety

/-! ### A write of B and of I -/

theorem advance_dag (s : State) : (advance s).dag = s.dag ∧ (advance s).dagAlt = s.dagAlt := by
  unfold advance passEnd
  repeat' split
  all_goals exact ⟨rfl, rfl⟩

/-- The copy `new` is `old` with B[n] and I[n] written. -/
abbrev Based (n : Fin 16) (v : Word) (old new : DagRegs) : Prop :=
  new.b[n] = v ∧ new.i[n] = v ∧ new.m = old.m ∧ new.l = old.l ∧ ∀ k, k ≠ n → dagEntry new k = dagEntry old k

theorem based_set (n : Fin 16) (v : Word) (d : DagRegs) : Based n v d { d with b := d.b.set n v, i := d.i.set n v } :=
  ⟨by simp, by simp, rfl, rfl, fun _ hk => (dagEntry_set_ne hk d v).2.2.2⟩

/-- A write of B[n] writes I[n] too, in the copy that MODE1 selects (10_state R16). -/
theorem setB_based (n : Fin 16) (v : Word) (s : State) :
    (altDag s n = true → Based n v s.dagAlt (setB n v s).dagAlt ∧ (setB n v s).dag = s.dag) ∧
      (altDag s n = false → Based n v s.dag (setB n v s).dag ∧ (setB n v s).dagAlt = s.dagAlt) := by
  rw [setB_eq, uregWritten, dagReplaced, dagRead]
  cases altDag s n with
  | true => exact ⟨fun _ => ⟨based_set n v s.dagAlt, rfl⟩, nofun⟩
  | false => exact ⟨nofun, fun _ => ⟨based_set n v s.dag, rfl⟩⟩

theorem setI_keeps_b (n : Fin 16) (v : Word) (s : State) :
    (setI n v s).dag.b = s.dag.b ∧ (setI n v s).dagAlt.b = s.dagAlt.b := by
  rw [setI_eq, uregWritten, dagReplaced, dagRead]
  cases altDag s n <;> exact ⟨rfl, rfl⟩

/-- Type 17 of a register whose write succeeds and keeps the place. -/
theorem exec_loadImm {u : UReg} {v : Word} {s t : State} (h : Ready s) (hw : writeUreg u v s = .next t) (hp : SamePlace s t) :
    exec (.loadImm u v) s = .next (advance t) := by
  show runPlain .plain s (writeUreg u v s) = _
  rw [hw]
  exact runPlain_ready h hp

/-! ### The latency of MODE1 -/

/-- Of two runs that both stop, the outcome is their common stop, else the fault (10_state R46). -/
theorem agree_of_stops {act : Word} {old new : Result} (ho : ∀ c, old ≠ .next c) (hn : ∀ c, new ≠ .next c) :
    (old = new → agree act old new = new) ∧ (old ≠ new → agree act old new = .fault .mode1Latency) := by
  cases old with
  | next a => exact absurd rfl (ho a)
  | fault f =>
    cases new with
    | next b => exact absurd rfl (hn b)
    | fault g => exact ⟨fun h => by cases h; exact if_pos rfl, fun h => if_neg fun hfg => h (by rw [hfg])⟩
    | refused g => exact ⟨nofun, fun _ => rfl⟩
  | refused f =>
    cases new with
    | next b => exact absurd rfl (hn b)
    | fault g => exact ⟨nofun, fun _ => rfl⟩
    | refused g => exact ⟨fun h => by cases h; exact if_pos rfl, fun h => if_neg fun hfg => h (by rw [hfg])⟩

/-! ### Places that refuse -/

theorem run_refused_simd {k : FlowKind} {s : State} (h : ¬ Sisd s) (x : Host.Outcome (State × Yield) Fault Refusal) :
    run k s x = .refused .simdMode := by
  have hs : s.simd = true := by simpa only [sisd_iff, Bool.not_eq_false] using h
  unfold run
  rw [if_pos hs]

theorem run_fault_slot {k : FlowKind} {s : State} {d : Delay} (hs : Sisd s) (hd : s.dly = some d) (hk : k.inSlot d = false)
    (x : Host.Outcome (State × Yield) Fault Refusal) : run k s x = .fault .branchInDelaySlot := by
  unfold run
  rw [if_neg (by simp [(sisd_iff s).1 hs]), if_pos (by simp [hd, hk])]

theorem run_refused_tail {k : FlowKind} {s : State} (hs : Sisd s) (hd : s.dly = none) (ht : InTail s) (hk : k.inTail = false)
    (x : Host.Outcome (State × Yield) Fault Refusal) : run k s x = .refused .branchAtLoopEnd := by
  unfold run
  rw [if_neg (by simp [(sisd_iff s).1 hs]), if_neg (by simp [hd]), if_pos (by simp [inLoopTail_iff.2 ht, hk])]

/-- A delay slot at the end of a loop stops, whatever the instruction yields (43_program_flow R223). -/
theorem retire_fault_slot_end {y : Yield} {s : State} {d : Delay} (hd : s.dly = some d) (he : EndsLoop s) :
    retire y s = .fault .branchInDelaySlot := by
  unfold retire
  simp only [hd]
  rw [if_pos (.inr (atSomeLoopEnd_iff.2 he))]

/-- No instruction in a delay slot that ends a loop answers a next state: one that may stand in a slot keeps its place until it
ends, and there it stops. -/
theorem exec_slot_end {i : Instr} {s : State} {d : Delay} (hd : s.dly = some d) (he : EndsLoop s) (t : State) :
    exec i s ≠ .next t := by
  intro h
  obtain ⟨_, hb, s1, y, heff, hr⟩ := exec_eq_next h
  have hbar : barredFromSlots i = false := by
    rw [← Bool.not_eq_true]
    intro hc
    rw [hb hc] at hd
    cases hd
  obtain ⟨hp, _⟩ := heff.samePlace hbar
  rw [retire_fault_slot_end (hp.dly.trans hd) (by rwa [EndsLoop, hp.loopStack, hp.pc])] at hr
  cases hr

/-! ### Writes that are refused -/

/-- A value that may not be written where an instruction starts may not be written after its operation and its index update:
these change of IRPTL no bit that the check looks at. -/
theorem writeUreg_refused {u : UReg} {v : Word} {s t : State} (h : refusedWrite u v s = true) (h2 : t.lirptl = s.lirptl)
    (h4 : t.lirptlRead = s.lirptlRead) (h3 : (t.irptl ^^^ s.irptl) &&& 0x80000201 = 0) :
    writeUreg u v t = .refused .reservedBit := by
  cases u
  case mode1 => exact if_neg (by simpa [refusedWrite, mode1Reserved] using h)
  case mode2 => exact if_neg (by simpa [refusedWrite, mode2Reserved] using h)
  case imask => exact if_neg fun hc => bne_iff_ne.1 h hc.1
  case irptl =>
    refine if_neg fun hv => ?_
    have hx : v ^^^ s.irptl = (v ^^^ t.irptl) ^^^ (t.irptl ^^^ s.irptl) := by
      rw [BitVec.xor_assoc, ← BitVec.xor_assoc t.irptl, BitVec.xor_self, BitVec.zero_xor]
    simp only [refusedWrite, hx, and_xor_eq_zero hv h3] at h
    cases h
  case lirptl =>
    refine if_neg fun hv => ?_
    obtain ⟨h1, hp⟩ := hv
    rw [State.keepsPointers, State.readsPointers, h2, h4, lirptlRead_eq] at hp
    simp only [refusedWrite, h1, Bool.or_eq_true, bne_iff_ne, beq_iff_eq, Bool.and_eq_true] at h hp
    tauto
  all_goals cases h

theorem changeSreg_refused {r : SReg} {f : Word → Word} {s : State} (h : refusedChange r (f (sregHeld s r)) s = true) :
    changeSreg r f s = .refused .reservedBit := by
  have write : ∀ u v, refusedWrite u v s = true → writeUreg u v s = .refused .reservedBit :=
    fun u v hw => writeUreg_refused hw rfl rfl (by simp)
  unfold refusedChange at h
  rw [Bool.or_eq_true] at h
  cases r
  case lirptl =>
    refine if_neg fun hv => ?_
    obtain ⟨h1, hk⟩ := hv
    unfold State.keepsPointers at hk
    simp only [refusedWrite, sregAsUreg, sregHeld, h1, beq_iff_eq.1 hk] at h
    simp at h
  case mode1 | mode2 | imask | irptl => exact write _ _ (h.resolve_right (by simp))
  all_goals exact absurd h (by simp [refusedWrite, sregAsUreg])

/-- What a write's check looks at is as before the instruction after its index update and its operation. -/
theorem checks_of_update (form : DagForm) (n : Fin 16) (k : Word) (slot : Config.Slot) (c : Compute)
    (inp : Config.ComputeInput) (s : State) :
    let t := applyCompute slot c inp (formUpdated form n k s)
    t.lirptl = s.lirptl ∧ t.lirptlRead = s.lirptlRead ∧ (t.irptl ^^^ s.irptl) &&& 0x80000201 = 0 := by
  have hx : ∀ x y z : Word, x ^^^ z = (x ^^^ y) ^^^ (y ^^^ z) := fun x y z => by
    rw [BitVec.xor_assoc, ← BitVec.xor_assoc y, BitVec.xor_self, BitVec.zero_xor]
  have h1 := applyCompute_irptl_outside slot c inp (formUpdated form n k s)
  have h2 := formUpdated_irptl_outside form n k s
  obtain ⟨_, _, _, he⟩ := formUpdated_frame form n k s
  obtain ⟨_, _, _, _, _, _, hc⟩ := applyCompute_frame slot c inp (formUpdated form n k s)
  refine ⟨by rw [hc, he], by rw [hc, he]; rfl, ?_⟩
  rw [hx _ (formUpdated form n k s).irptl]
  exact and_xor_eq_zero h1 h2

theorem loadMove_refused {form : DagForm} {bus : Bus} {n : Fin 16} {k x : Word} {u : UReg} {slot : Config.Slot} {c : Compute}
    {s : State} (hf : FormOk form s n k) (hh : Holds s bus (s.dagAddr form n k) x) (hw : refusedWrite u x s = true) :
    loadMove form bus n k u slot c s = .refused .reservedBit := by
  obtain ⟨_, _, _, he⟩ := formUpdated_frame form n k s
  obtain ⟨h1, h2, h3⟩ := checks_of_update form n k slot c s.computeInput s
  unfold loadMove
  rw [dagUpdate_ok hf, andThen_next, memRead_holds (holds_congr hh (by rw [he]) (by rw [he]) (by rw [he]) (by rw [he])),
    andThen_next]
  exact writeUreg_refused hw h1 h2 h3

theorem runPlain_refused {s : State} (hs : Sisd s) {x : Result} {r : Refusal} (hx : x = .refused r) :
    runPlain .plain s x = .refused r := by
  subst hx
  unfold runPlain
  rw [run_eq hs (fun _ _ => rfl) fun _ => rfl]
  rfl

theorem whenCond_of_truth {cond : CondCode} {s : State} (h : truth s cond = true) (x : Result) : whenCond cond s x = x :=
  whenCond_true (by rw [← truth_eq, h]) x

end Sys2Proof.Machine

namespace Sys2Proof.Safety
open Sys2Proof.Machine

/-- Settles O15. -/
theorem baseWriteSetsIndex : Obligations.BaseWriteSetsIndex := by
  intro n v s
  dsimp only
  have place : ∀ d, SamePlace s (setDag n d s) := fun _ => ⟨rfl, rfl, rfl, rfl⟩
  refine ⟨⟨_, rfl, setB_based n v s⟩, fun hr => ⟨_, exec_loadImm hr rfl (place _), ?_⟩, ⟨_, rfl, setI_keeps_b n v s⟩,
    fun hr => ⟨_, exec_loadImm hr rfl (place _), ?_⟩⟩
  · obtain ⟨h1, h2⟩ := advance_dag (setB n v s)
    rw [h1, h2]
    exact setB_based n v s
  · obtain ⟨h1, h2⟩ := advance_dag (setI n v s)
    rw [h1, h2]
    exact setI_keeps_b n v s

/-- Settles O24. -/
theorem delayedBranchRunsTwoSlots : Obligations.DelayedBranchRunsTwoSlots := by
  intro t byRti s hd h1 h2
  have slot : ∀ (p : PAddr) (dl : Delay), ¬ EndsLoop { s with pc := p } →
      State.atSomeLoopEnd { s with dly := some dl, pc := p } = false := fun p dl hn => by
    rw [← Bool.not_eq_true]
    exact fun hc => hn (atSomeLoopEnd_iff.1 hc)
  have hpc : s.pc + 1 + 1 = s.pc + 2 := by rw [BitVec.add_assoc]; rfl
  refine ⟨?_, ?_, ?_⟩
  · unfold retire
    simp only [hd]
  · unfold retire
    simp only [slot _ _ h1, hpc, ne_eq, not_true_eq_false, Bool.false_eq_true, or_self, if_false]
  · unfold retire
    simp only [slot _ _ h2, ne_eq, not_true_eq_false, Bool.false_eq_true, or_self, if_false]

/-- Settles O42: the four cases are those of the comparison of the two runs; the run under the new MODE1 leaves that value in
force. -/
theorem modeLatency : Obligations.ModeLatency := by
  intro i s a b hw
  dsimp only
  have latency : withLatency (exec i) s = agree s.mode1 (exec i { s with mode1Wrote := false })
      (exec i { s with mode1Wrote := false, mode1Act := s.mode1 }) := by
    unfold withLatency
    rw [if_pos hw]
  rw [latency]
  refine ⟨fun hn ho => ?_, fun hn ho => ?_, fun ho hn => ?_, agree_of_stops⟩
  · have hact : b.mode1Act = s.mode1 := (Prod.ext_iff.1 (exec_outerFields hn)).1
    rw [hn, ho]
    exact if_pos (by rw [← hact])
  · rw [hn]
    cases hold : exec i { s with mode1Wrote := false } with
    | next c => exact if_neg (ho c hold)
    | fault | refused => rfl
  · rw [ho]
    cases hnew : exec i { s with mode1Wrote := false, mode1Act := s.mode1 } with
    | next c => exact absurd hnew (hn c)
    | fault | refused => rfl

/-- Settles O55. -/
theorem resetMeetsInvariants : Obligations.ResetMeetsInvariants := by
  unfold Obligations.ResetMeetsInvariants
  decide

/-- Settles O56. -/
theorem resetValues : Obligations.ResetValues := by
  refine ⟨rfl, fun noBoot => ?_⟩
  cases noBoot <;> decide

/-- Settles O57. -/
theorem placementRules : Obligations.PlacementRules := by
  intro i s
  obtain ⟨effects, he, _⟩ := exec_shaped i s
  refine ⟨fun h => ?_, fun d hd => ⟨fun hs hb => ?_, fun hs hr => ?_, fun hs hl => ?_, fun hl => exec_slot_end hd hl⟩,
    fun hs hd ht hb => ?_⟩
  · rw [he]
    exact run_refused_simd h _
  · rw [he]
    exact run_fault_slot hs hd (flowKind_inSlot hb d) _
  · exact run_fault_slot (k := .popSts) hs hd hr _
  · show run .plain s _ = _
    rw [run_eq hs (fun _ _ => rfl) fun _ => rfl]
    exact retire_fault_slot_end hd hl
  · rw [he]
    exact run_refused_tail hs hd ht (by rw [flowKind_inTail, hb]; rfl) _

/-- Settles O60. -/
theorem reservedBitsRefused : Obligations.ReservedBitsRefused := by
  intro s u v hr
  obtain ⟨hs, _⟩ := hr
  refine ⟨fun r data _ => ⟨fun h => ?_, fun h => ?_, fun h => ?_⟩, fun h => ⟨?_, fun cond c u2 ht hu hv => ?_,
    fun bus addr hh => ?_, fun bus i data hh => ?_, fun cond c bus i m ht => ⟨fun hi hh => ?_, fun hh => ?_⟩⟩⟩
  · exact runPlain_refused hs (changeSreg_refused h)
  · exact runPlain_refused hs (changeSreg_refused h)
  · exact runPlain_refused hs (changeSreg_refused h)
  · exact runPlain_refused hs (writeUreg_refused h rfl rfl (by simp))
  · refine runPlain_refused hs ?_
    obtain ⟨h1, h2, h3⟩ := checks_of_update .pre 0 0 .compute c s.computeInput s
    rw [whenCond_of_truth ht, readUreg_eq hu, hv, andThen_next]
    exact writeUreg_refused h h1 h2 h3
  · refine runPlain_refused hs ?_
    rw [memRead_holds hh, andThen_next]
    exact writeUreg_refused h rfl rfl (by simp)
  · exact runPlain_refused hs (loadMove_refused (form := .pre) nofun hh h)
  · refine runPlain_refused hs ?_
    rw [whenCond_of_truth ht]
    exact loadMove_refused (form := .post) (fun _ => hi) hh h
  · refine runPlain_refused hs ?_
    rw [whenCond_of_truth ht]
    exact loadMove_refused (form := .pre) nofun hh h

end Sys2Proof.Safety
end

section
/-! CERTIFICATE. Data memory: a word reads back what was written; when an access is made, and how it stops otherwise. -/

namespace Sys2Proof.Machine
open Sys2Proof.Safety

/-! ### A word after a write -/

/-- A data word reads back what was written to it (20_memory R63, R64). -/
@[simp] theorem Memory.readWord_writeWord_same (m : Memory) (a v : Word) :
    Memory.readWord (Memory.writeWord m a v) a = some v := by
  have hb := Memory.readBytes_writeBytes (splitBytes 4 v.toNat) m (wordCell a)
  rw [length_splitBytes] at hb
  have hv : BitVec.ofNat 32 (joinBytes (splitBytes 4 v.toNat)) = v := by
    rw [joinBytes_splitBytes, Nat.mod_eq_of_lt (b := 256 ^ 4) v.isLt, BitVec.ofNat_toNat, BitVec.setWidth_eq]
  rw [Memory.readWord, Memory.writeWord, hb, Option.map_some, hv]

/-- The cells of distinct words are apart (20_memory R67, log 5). -/
theorem wordCell_apart {a b : Word} (h : b ≠ a) : wordCell b + 4 ≤ wordCell a ∨ wordCell a + 4 ≤ wordCell b := by
  have hn : b.toNat ≠ a.toNat := mt BitVec.eq_of_toNat_eq h
  unfold wordCell
  omega

theorem Memory.readWord_writeWord_other (m : Memory) {a b : Word} (v : Word) (h : b ≠ a) :
    Memory.readWord (Memory.writeWord m a v) b = Memory.readWord m b := by
  have apart := wordCell_apart h
  unfold Memory.readWord
  rw [Memory.readBytes_congr fun y _ _ => Memory.read_writeWord_outside m a v y (by omega)]

/-! ### The program text as data addresses -/

/-- The data addresses of the program text are the program addresses of its words (20_memory R61). -/
theorem holdsCode_iff {s : State} {a : Word} :
    s.holdsCode a = true ↔ ∃ p : PAddr, a = p.setWidth 32 ∧ (s.codeBytes p).isSome = true := by
  simp only [State.holdsCode, Bool.and_eq_true, decide_eq_true_eq]
  constructor
  · rintro ⟨ha, hc⟩
    refine ⟨a.setWidth 24, BitVec.eq_of_toNat_eq ?_, hc⟩
    rw [BitVec.toNat_setWidth, BitVec.toNat_setWidth]
    omega
  · rintro ⟨p, rfl, hc⟩
    have hp : (p.setWidth 32).setWidth 24 = p := by
      apply BitVec.eq_of_toNat_eq
      rw [BitVec.toNat_setWidth, BitVec.toNat_setWidth]
      omega
    rw [hp]
    exact ⟨by rw [BitVec.toNat_setWidth]; omega, hc⟩

/-- No address of more than 24 bits holds an instruction (20_memory R61). -/
theorem holdsCode_of_le {s : State} {a : Word} (h : 2 ^ 24 ≤ a.toNat) : s.holdsCode a = false := by
  rw [State.holdsCode, decide_eq_false (Nat.not_lt.2 h), Bool.false_and]

/-! ### The kind of an address -/

theorem covers_iff {r : Region} {a : Word} : r.covers a = true ↔ Covers r a := by
  simp [Region.covers, Covers]

/-- An address lies in the first region of MemMap that covers it (log 4). -/
theorem regionAt_of_first {s : State} {a : Word} {before after : List Region} {r : Region}
    (hm : s.memMap = before ++ r :: after) (hr : Covers r a) (hb : ∀ q ∈ before, ¬ Covers q a) :
    s.regionAt a = some r := by
  have hn : before.find? (·.covers a) = none := List.find?_eq_none.2 fun q hq => mt covers_iff.1 (hb q hq)
  rw [State.regionAt, hm, List.find?_append, hn, Option.none_or]
  exact List.find?_cons_of_pos (p := fun q : Region => q.covers a) (covers_iff.2 hr)

theorem regionAt_of_uncovered {s : State} {a : Word} (h : ∀ r ∈ s.memMap, ¬ Covers r a) : s.regionAt a = none :=
  List.find?_eq_none.2 fun r hr => mt covers_iff.1 (h r hr)

theorem kindAt_of_regionAt {s : State} {a : Word} {r : Region} (h : s.regionAt a = some r) (bus : Bus) :
    s.kindAt bus a = if r.reachedBy bus then some r.kind else none := by
  rw [State.kindAt, h, Option.bind_some]

theorem kindAt_of_regionAt_none {s : State} {a : Word} (h : s.regionAt a = none) (bus : Bus) : s.kindAt bus a = none := by
  rw [State.kindAt, h, Option.bind_none]

/-- An address has one kind on the buses that reach it (20_memory R61, D6). -/
theorem kindAt_unique {s : State} {b1 b2 : Bus} {a : Word} {k1 k2 : MemKind} (h1 : s.kindAt b1 a = some k1)
    (h2 : s.kindAt b2 a = some k2) : k1 = k2 := by
  obtain ⟨r1, hr1, _, rfl⟩ := kindAt_eq_some.1 h1
  obtain ⟨r2, hr2, _, rfl⟩ := kindAt_eq_some.1 h2
  rw [hr1] at hr2
  cases hr2
  rfl

/-! ### Accesses by the kind of the address -/

section
variable {s : State} {bus : Bus} {a : Word}

/-- The program text is not data: a store to it and a read of it stop (20_memory R63, R72, log 25). -/
theorem access_of_holdsCode (h : s.holdsCode a = true) (v : Word) :
    memWrite bus a v s = .fault .writeToCode ∧ memRead s bus a = .fault .readUnmapped :=
  ⟨if_pos h, if_pos h⟩

variable (hc : s.holdsCode a = false)
include hc

theorem access_unmapped (hk : s.kindAt bus a = none) (v : Word) :
    memWrite bus a v s = .fault .writeUnmapped ∧ memRead s bus a = .fault .readUnmapped := by
  simp [memWrite, memRead, hc, hk]

theorem memRead_unwritten (hk : s.kindAt bus a = some .data) (hm : Memory.readWord s.mem a = none) :
    memRead s bus a = .fault .readUnwritten := by
  simp [memRead, hc, hk, hm]

theorem access_device (hk : s.kindAt bus a = some .device) (v : Word) :
    memWrite bus a v s = .refused .deviceNotServed ∧ memRead s bus a = .refused .deviceNotServed := by
  simp [memWrite, memRead, hc, hk]

theorem access_served (hk : s.kindAt bus a = some .served) (v : Word) :
    memWrite bus a v s = .next s ∧ memRead s bus a = .next (Config.deviceWord s.cycle bus a) := by
  simp [memWrite, memRead, hc, hk]

theorem access_ioflag (hk : s.kindAt bus a = some .ioflag) (v : Word) :
    memWrite bus a v s = .next { s with ioflag := v } ∧ memRead s bus a = .next s.ioflag := by
  simp [memWrite, memRead, hc, hk]

end

/-- A word that both buses reach reads alike on both (20_memory R61, R76). -/
theorem memRead_same_on_buses {s : State} {b1 b2 : Bus} {a : Word} (h1 : Admits s b1 a) (h2 : Admits s b2 a) :
    memRead s b1 a = memRead s b2 a := by
  obtain ⟨hc, hk1⟩ := h1
  obtain ⟨_, hk2⟩ := h2
  have hk : s.kindAt b1 a = s.kindAt b2 a := by
    obtain ⟨k1, h1⟩ : ∃ k, s.kindAt b1 a = some k := hk1.elim (⟨_, ·⟩) (⟨_, ·⟩)
    obtain ⟨k2, h2⟩ : ∃ k, s.kindAt b2 a = some k := hk2.elim (⟨_, ·⟩) (⟨_, ·⟩)
    rw [h1, h2, kindAt_unique h1 h2]
  unfold memRead
  rw [hk]
  obtain hk2 | hk2 := hk2 <;> rw [hk2]

end Sys2Proof.Machine

namespace Sys2Proof.Safety
open Sys2Proof.Machine

/-- Settles O34. -/
theorem wordReadsBack : Obligations.WordReadsBack := by
  intro m a v
  exact ⟨Memory.readWord_writeWord_same m a v, fun b hb => Memory.readWord_writeWord_other m v hb⟩

/-- Settles O36: each clause is the rule of an access by the kind of its address, or a fact of MemMap. -/
theorem dataAccessOutcome : Obligations.DataAccessOutcome := by
  intro s bus a v
  refine ⟨fun h => memWrite_admits h v, memRead_holds, fun hdm hpm => memRead_same_on_buses hpm hdm,
    fun h => access_of_holdsCode h v, fun p hp => access_of_holdsCode (holdsCode_iff.2 ⟨p, rfl, hp⟩) v, holdsCode_iff,
    holdsCode_of_le, fun before r after hm hr hb => ?_, fun h => kindAt_of_regionAt_none (regionAt_of_uncovered h) bus,
    fun _ _ => kindAt_unique, fun hc => ⟨(access_unmapped hc · v), memRead_unwritten hc, (access_device hc · v),
      (access_served hc · v), (access_ioflag hc · v)⟩⟩
  have region := regionAt_of_first hm hr hb
  exact ⟨kindAt_of_regionAt region .dm, kindAt_of_regionAt region .pm⟩

end Sys2Proof.Safety
end

section
/-! CERTIFICATE. What changes data memory and what does not: the program text, MemMap and the boot mode are fixed for a run, and an
instruction changes no cell outside the words that it stores to (`StoresTo`). -/

namespace Sys2Proof.Machine
open Sys2Proof.Safety

/-! ### The launch's parameters -/

/-- What the launch fixes for a run: the program text, MemMap and the boot mode (20_memory R62, R72, 70_reset R301). -/
def launchFields (s : State) := (s.code, s.memMap, s.noBoot)

theorem exec_launchFields {i : Instr} {s t : State} (h : exec i s = .next t) : launchFields t = launchFields s :=
  exec_keeps launchFields (fun a b hab => by cases hab <;> rfl) (fun _ _ _ _ _ => rfl) h

theorem takeInterrupt_launchFields {n : Interrupt} {s t : State} (h : takeInterrupt n s = .next t) :
    launchFields t = launchFields s := by
  obtain ⟨_, u, rfl | ⟨_, rfl⟩, rfl⟩ := takeInterrupt_eq_next h <;> rfl

theorem agents_launchFields (s : State) : launchFields (agents s) = launchFields s :=
  (agentEffects_agents s).preserves (P := fun x => launchFields x = launchFields s)
    (fun a b hab ha => by cases hab <;> exact ha) rfl

theorem step_launchFields {s t : State} (h : step s = .next t) : launchFields t = launchFields s := by
  have ha := agents_launchFields s
  obtain ⟨n, _, ht⟩ | ⟨_, rfl⟩ | ⟨i, wait, _, _, he⟩ := step_eq_next h
  · exact (takeInterrupt_launchFields ht).trans ha
  · exact ha
  · exact (exec_launchFields he).trans ha

/-! ### Operations that store nothing -/

/-- Data memory and IOFLAG are the same in both states. -/
abbrev SameData (s t : State) : Prop := t.mem = s.mem ∧ t.ioflag = s.ioflag

theorem SameData.trans {s t u : State} (h1 : SameData s t) (h2 : SameData t u) : SameData s u :=
  ⟨h2.1.trans h1.1, h2.2.trans h1.2⟩

section
variable {s t : State}

theorem sameData_applyCompute (slot : Config.Slot) (c : Compute) (inp : Config.ComputeInput) :
    SameData s (applyCompute slot c inp s) :=
  ⟨applyCompute_mem slot c inp s, applyCompute_ioflag slot c inp s⟩

theorem sameData_modifyIndex {n : Fin 16} {m : Word} (h : modifyIndex n m s = .next t) : SameData s t := by
  obtain ⟨v, rfl | rfl⟩ := modifyIndex_eq_next h <;> exact ⟨rfl, rfl⟩

theorem sameData_dagUpdate {form : DagForm} {n : Fin 16} {m : Word} (h : dagUpdate form n m s = .next t) : SameData s t := by
  cases form with
  | post => exact sameData_modifyIndex h
  | pre =>
    cases h
    exact ⟨rfl, rfl⟩

theorem sameData_writeUreg {u : UReg} {v : Word} (h : writeUreg u v s = .next t) : SameData s t := by
  obtain ⟨_, ht⟩ := writeUreg_eq_next h
  cases u
  case r | i | m | l | b =>
    cases h
    exact ⟨rfl, rfl⟩
  all_goals
    subst ht
    exact ⟨rfl, rfl⟩

theorem sameData_changeSreg {r : SReg} {f : Word → Word} (h : changeSreg r f s = .next t) : SameData s t :=
  sameData_writeUreg (changeSreg_eq_next h)

theorem sameData_testSreg {r : SReg} {test : Word → Bool} (h : testSreg r test s = .next t) : SameData s t := by
  obtain ⟨b, rfl⟩ := testSreg_eq_next h
  exact ⟨rfl, rfl⟩

theorem sameData_popStatus (h : popStatus s = .next t) : SameData s t := by
  obtain ⟨e, rest, _, _, rfl⟩ := popStatus_eq_next h
  exact ⟨rfl, rfl⟩

theorem sameData_loadMove {form : DagForm} {bus : Bus} {n : Fin 16} {m : Word} {u : UReg} {slot : Config.Slot} {c : Compute}
    (h : loadMove form bus n m u slot c s = .next t) : SameData s t := by
  obtain ⟨s1, h1, h⟩ := andThen_eq_next.1 h
  obtain ⟨v, _, h2⟩ := andThen_eq_next.1 h
  exact ((sameData_dagUpdate h1).trans (sameData_applyCompute ..)).trans (sameData_writeUreg h2)

theorem sameData_dualResult (dir : Dir) (d : DReg) (x : Word) : SameData s (dualResult dir d x s) := by
  cases dir <;> exact ⟨rfl, rfl⟩

theorem sameData_jumpTaken {a : PAddr} {db la ci : Bool} {y : Yield} (h : jumpTaken a db la ci s = .next (t, y)) :
    SameData s t := by
  obtain ⟨s1, h1, h⟩ := andThen_eq_next.1 h
  obtain ⟨s2, h2, h⟩ := andThen_eq_next.1 h
  cases h
  have aborted : SameData s s1 := by
    split at h1
    · obtain ⟨_, _, _, _, _, _, rfl⟩ := abortLoop_eq_next h1
      exact ⟨rfl, rfl⟩
    · cases h1
      exact ⟨rfl, rfl⟩
  have cleared : SameData s1 t := by
    split at h2
    · obtain ⟨_, _, _, rfl⟩ := clearInterrupt_eq_next h2
      exact ⟨rfl, rfl⟩
    · cases h2
      exact ⟨rfl, rfl⟩
  exact aborted.trans cleared

theorem sameData_callTaken {a : PAddr} {db : Bool} {y : Yield} (h : callTaken a db s = .next (t, y)) : SameData s t := by
  obtain ⟨s1, h1, h⟩ := andThen_eq_next.1 h
  cases h
  obtain ⟨_, rfl⟩ := pushPc_eq_next.1 h1
  exact ⟨rfl, rfl⟩

theorem sameData_rtsTaken {db lr : Bool} {y : Yield} (h : rtsTaken db lr s = .next (t, y)) : SameData s t := by
  unfold rtsTaken at h
  split at h
  · cases h
  · obtain ⟨⟨a, s1⟩, h1, h⟩ := andThen_eq_next.1 h
    cases h
    obtain ⟨_, _, rfl⟩ := popPc_eq_next.1 h1
    exact ⟨rfl, rfl⟩

theorem sameData_returnFromInterrupt {a : PAddr} (h : returnFromInterrupt s = .next (a, t)) : SameData s t := by
  obtain ⟨_, _, _, _, _, rfl | hpop⟩ := returnFromInterrupt_eq_next h
  · exact ⟨rfl, rfl⟩
  · obtain ⟨hm, hf⟩ := sameData_popStatus hpop
    exact ⟨hm, hf⟩

theorem sameData_branchEffects {cond : CondCode} {clause : Clause} {taken : Host.Outcome (State × Yield) Fault Refusal}
    {y : Yield} (ht : ∀ s1 y1, taken = .next (s1, y1) → SameData s s1)
    (h : branchEffects cond clause s taken = .next (t, y)) : SameData s t := by
  unfold branchEffects at h
  split at h
  · obtain ⟨⟨s1, y1⟩, h1, h⟩ := andThen_eq_next.1 h
    cases h
    exact (ht _ _ h1).trans (sameData_applyCompute ..)
  · cases h
    exact sameData_applyCompute ..

theorem sameData_startLoop {e : PAddr} {term : CondCode} {n : Word} (h : startLoop e term n s = .next t) : SameData s t := by
  obtain ⟨_, _, _, rfl⟩ := startLoop_eq_next h
  exact ⟨rfl, rfl⟩

theorem sameData_countedLoop {e : PAddr} {n : Word} (h : countedLoop n e s = .next t) : SameData s t := by
  unfold countedLoop at h
  split at h
  · cases h
  · obtain ⟨s1, h1, h⟩ := andThen_eq_next.1 h
    cases h
    exact (sameData_startLoop h1).trans ⟨rfl, rfl⟩

theorem sameData_retire {y : Yield} (h : retire y s = .next t) : SameData s t := by
  obtain ⟨_, _, _, _, rfl⟩ := retire_eq_next h
  exact ⟨rfl, rfl⟩

end

/-! ### Operations that store -/

/-- From `s` to `t` no cell of data memory changes outside the words, and where there are none neither memory nor IOFLAG does. -/
def StoresTo (words : List Word) (s t : State) : Prop :=
  (∀ x, Outside x words → Memory.read t.mem x = Memory.read s.mem x) ∧ (words = [] → SameData s t)

theorem SameData.storesTo {s t : State} (h : SameData s t) (words : List Word) : StoresTo words s t :=
  ⟨fun _ _ => by rw [h.1], fun _ => h⟩

theorem StoresTo.append {w1 w2 : List Word} {s t u : State} (h1 : StoresTo w1 s t) (h2 : StoresTo w2 t u) :
    StoresTo (w1 ++ w2) s u := by
  obtain ⟨r1, e1⟩ := h1
  obtain ⟨r2, e2⟩ := h2
  refine ⟨fun x hx => ?_, fun hw => ?_⟩
  · obtain ⟨hx1, hx2⟩ := List.forall_mem_append.1 hx
    exact (r2 x hx2).trans (r1 x hx1)
  · obtain ⟨hw1, hw2⟩ := List.append_eq_nil_iff.1 hw
    exact (e1 hw1).trans (e2 hw2)

theorem StoresTo.before {words : List Word} {s t u : State} (h1 : StoresTo words s t) (h2 : SameData t u) :
    StoresTo words s u := by
  simpa using h1.append (h2.storesTo [])

theorem StoresTo.after {words : List Word} {s t u : State} (h1 : SameData s t) (h2 : StoresTo words t u) :
    StoresTo words s u :=
  (h1.storesTo []).append h2

section
variable {s t : State} {words : List Word}

theorem storesTo_memWrite {bus : Bus} {a v : Word} (h : memWrite bus a v s = .next t) : StoresTo [a] s t := by
  refine ⟨fun x hx => ?_, nofun⟩
  obtain rfl | rfl | rfl := memWrite_eq_next h
  · rfl
  · exact Memory.read_writeWord_outside _ _ _ _ (hx a (List.mem_singleton_self a))
  · rfl

theorem storesTo_storeMove {form : DagForm} {bus : Bus} {n : Fin 16} {m v : Word} {slot : Config.Slot} {c : Compute}
    (h : storeMove form bus n m v slot c s = .next t) : StoresTo [s.dagAddr form n m] s t := by
  obtain ⟨s1, h1, h⟩ := andThen_eq_next.1 h
  obtain ⟨s2, h2, h⟩ := andThen_eq_next.1 h
  cases h
  exact (StoresTo.after (sameData_dagUpdate h1) (storesTo_memWrite h2)).before (sameData_applyCompute ..)

theorem storesTo_dualAccess {dir : Dir} {bus : Bus} {a v x : Word} (h : dualAccess dir bus a v s = .next (x, t)) :
    StoresTo (if dir = .store then [a] else []) s t := by
  cases dir with
  | store =>
    obtain ⟨s1, h1, h⟩ := andThen_eq_next.1 h
    cases h
    exact storesTo_memWrite h1
  | load =>
    obtain ⟨y, _, h⟩ := andThen_eq_next.1 h
    cases h
    exact SameData.storesTo ⟨rfl, rfl⟩ _

/-- An instruction that a false condition makes do nothing stores only where the condition is true (41_compute_move R140). -/
theorem storesTo_whenCond {cond : CondCode} {x : Result} (hx : x = .next t → StoresTo words s t)
    (h : whenCond cond s x = .next t) : StoresTo (if truth s cond then words else []) s t := by
  rw [truth_eq]
  unfold whenCond at h
  split at h
  · rename_i hc
    rw [if_pos hc]
    exact hx h
  · rename_i hc
    cases h
    exact SameData.storesTo ⟨rfl, rfl⟩ _

theorem sameData_whenCond {cond : CondCode} {x : Result} (hx : x = .next t → SameData s t)
    (h : whenCond cond s x = .next t) : SameData s t := by
  unfold whenCond at h
  split at h
  · exact hx h
  · cases h
    exact ⟨rfl, rfl⟩

/-- The move of a branch's `ELSE` is made where the branch is not taken (43_program_flow R212, R213). -/
theorem storesTo_jumpElseMove {cond : CondCode} {a : PAddr} {c : Compute} {dir : Dir} {ia mb : Fin 8} {d : DReg} {y : Yield}
    (hw : dir = .store → words = if truth s cond then [] else [s.postAddr (dagIndex .dm ia)])
    (h : jumpElseMove cond a c dir ia mb d s = .next (t, y)) : StoresTo words s t := by
  unfold jumpElseMove at h
  rw [← truth_eq] at h
  split at h
  · cases h
    exact SameData.storesTo ⟨rfl, rfl⟩ _
  · rename_i hc
    obtain ⟨s1, h1, h⟩ := andThen_eq_next.1 h
    cases h
    cases dir with
    | store =>
      rw [hw rfl, if_neg hc]
      exact storesTo_storeMove h1
    | load => exact (sameData_loadMove h1).storesTo _

/-! ### Instructions -/

theorem storesTo_run {k : FlowKind} {effects : Host.Outcome (State × Yield) Fault Refusal}
    (hx : ∀ s1 y, effects = .next (s1, y) → StoresTo words s s1) (h : run k s effects = .next t) : StoresTo words s t := by
  obtain ⟨_, _, _, s1, y, he, hr⟩ := run_eq_next h
  exact (hx s1 y he).before (sameData_retire hr)

theorem storesTo_runPlain {k : FlowKind} {effects : Result} (hx : ∀ s1, effects = .next s1 → StoresTo words s s1)
    (h : runPlain k s effects = .next t) : StoresTo words s t := by
  obtain ⟨_, _, _, s1, he, hr⟩ := runPlain_eq_next h
  exact (hx s1 he).before (sameData_retire hr)

theorem storesTo_branch {k : FlowKind} {cond : CondCode} {clause : Clause}
    {taken : Host.Outcome (State × Yield) Fault Refusal} (ht : ∀ s1 y1, taken = .next (s1, y1) → SameData s s1)
    (h : run k s (branchEffects cond clause s taken) = .next t) : StoresTo words s t :=
  storesTo_run (fun _ _ he => (sameData_branchEffects ht he).storesTo _) h

theorem storesTo_indirect {k : FlowKind} {cond : CondCode} {md ic : Fin 8} {clause : Clause}
    {taken : PAddr → Host.Outcome (State × Yield) Fault Refusal} (ht : ∀ a s1 y1, taken a = .next (s1, y1) → SameData s s1)
    (h : run k s (andThen (s.indirectTarget md ic) fun a => branchEffects cond clause s (taken a)) = .next t) :
    StoresTo words s t := by
  refine storesTo_run (fun s1 y he => ?_) h
  obtain ⟨a, _, he⟩ := andThen_eq_next.1 he
  exact (sameData_branchEffects (ht a) he).storesTo _

theorem execComputeDualMove_storesTo {c : Compute} {dmDir pmDir : Dir} {ia mb ic md : Fin 8} {d1 d2 : DReg}
    (h : execComputeDualMove c dmDir ia mb d1 pmDir ic md d2 s = .next t) :
    StoresTo (storedWords (.computeDualMove c dmDir ia mb d1 pmDir ic md d2) s) s t := by
  refine storesTo_runPlain (fun u h => ?_) h
  obtain ⟨s1, h1, h⟩ := andThen_eq_next.1 h
  obtain ⟨s2, h2, h⟩ := andThen_eq_next.1 h
  split at h
  · cases h
  · obtain ⟨⟨x1, s3⟩, h3, h⟩ := andThen_eq_next.1 h
    obtain ⟨⟨x2, s4⟩, h4, h⟩ := andThen_eq_next.1 h
    cases h
    have updates := (sameData_modifyIndex h1).trans (sameData_modifyIndex h2)
    have results := ((sameData_applyCompute (s := s4) .compute c s.computeInput).trans
      (sameData_dualResult dmDir d1 x1)).trans (sameData_dualResult pmDir d2 x2)
    exact (StoresTo.after updates ((storesTo_dualAccess h3).append (storesTo_dualAccess h4))).before results

theorem execRti_sameData {cond : CondCode} {db : Bool} {clause : Clause} (h : execRti cond db clause s = .next t) :
    SameData s t := by
  obtain ⟨_, _, _, s1, y, he, hr⟩ := run_eq_next h
  refine SameData.trans ?_ (sameData_retire hr)
  split at he
  · obtain ⟨⟨a, s2⟩, h1, he⟩ := andThen_eq_next.1 he
    cases he
    exact (sameData_applyCompute ..).trans (sameData_returnFromInterrupt h1)
  · cases he
    exact sameData_applyCompute ..

end

/-- An instruction stores to the words that its meaning computes, and to no other (20_memory R71). -/
theorem exec_storesTo {i : Instr} {s t : State} (h : exec i s = .next t) : StoresTo (storedWords i s) s t := by
  cases i
  case computeDualMove => exact execComputeDualMove_storesTo h
  case storePostUreg | storePreUreg =>
    refine storesTo_runPlain (fun u hu => storesTo_whenCond (fun hu => ?_) hu) h
    obtain ⟨v, _, hu⟩ := andThen_eq_next.1 hu
    exact storesTo_storeMove hu
  case storePostData6 | storePreData6 | shiftStorePost =>
    exact storesTo_runPlain (fun u hu => storesTo_whenCond storesTo_storeMove hu) h
  case storeDirect =>
    refine storesTo_runPlain (fun u hu => ?_) h
    obtain ⟨v, _, hu⟩ := andThen_eq_next.1 hu
    exact storesTo_memWrite hu
  case storePreData32 =>
    refine storesTo_runPlain (fun u hu => ?_) h
    obtain ⟨v, _, hu⟩ := andThen_eq_next.1 hu
    exact storesTo_storeMove hu
  case storePostImm => exact storesTo_runPlain (fun u hu => storesTo_storeMove (form := .post) hu) h
  case jumpIndMove =>
    refine storesTo_run (fun u y hu => ?_) h
    obtain ⟨a, _, hu⟩ := andThen_eq_next.1 hu
    exact storesTo_jumpElseMove (fun hd => by rw [hd]; rfl) hu
  case jumpShortMove => exact storesTo_run (fun u y hu => storesTo_jumpElseMove (fun hd => by rw [hd]; rfl) hu) h
  case ifCompute =>
    refine storesTo_runPlain (fun u hu => (sameData_whenCond (fun hu => ?_) hu).storesTo _) h
    cases hu
    exact sameData_applyCompute ..
  case loadPostUreg | loadPreUreg | loadPostData6 | loadPreData6 | shiftLoadPost =>
    exact storesTo_runPlain (fun u hu => (sameData_whenCond sameData_loadMove hu).storesTo _) h
  case moveUreg =>
    refine storesTo_runPlain (fun u hu => (sameData_whenCond (fun hu => ?_) hu).storesTo _) h
    obtain ⟨v, _, hu⟩ := andThen_eq_next.1 hu
    exact (sameData_applyCompute ..).trans (sameData_writeUreg hu)
  case modifyReg =>
    refine storesTo_runPlain (fun u hu => (sameData_whenCond (fun hu => ?_) hu).storesTo _) h
    obtain ⟨s1, h1, hu⟩ := andThen_eq_next.1 hu
    cases hu
    exact (sameData_modifyIndex h1).trans (sameData_applyCompute ..)
  case loadDirect =>
    refine storesTo_runPlain (fun u hu => ?_) h
    obtain ⟨v, _, hu⟩ := andThen_eq_next.1 hu
    exact (sameData_writeUreg hu).storesTo _
  case loadPreData32 => exact storesTo_runPlain (fun u hu => (sameData_loadMove hu).storesTo _) h
  case loadImm => exact storesTo_runPlain (fun u hu => (sameData_writeUreg hu).storesTo _) h
  case modifyImm => exact storesTo_runPlain (fun u hu => (sameData_modifyIndex hu).storesTo _) h
  case jumpDirect | jumpRel | jumpShort => exact storesTo_branch (fun _ _ => sameData_jumpTaken) h
  case callDirect | callRel | callShort => exact storesTo_branch (fun _ _ => sameData_callTaken) h
  case jumpInd => exact storesTo_indirect (fun _ _ _ => sameData_jumpTaken) h
  case callInd => exact storesTo_indirect (fun _ _ _ => sameData_callTaken) h
  case rts => exact storesTo_branch (fun _ _ => sameData_rtsTaken) h
  case rti => exact (execRti_sameData h).storesTo _
  case doCountImm => exact storesTo_runPlain (fun u hu => (sameData_countedLoop hu).storesTo _) h
  case doCountUreg =>
    refine storesTo_runPlain (fun u hu => ?_) h
    obtain ⟨n, _, hu⟩ := andThen_eq_next.1 hu
    exact (sameData_countedLoop hu).storesTo _
  case doUntil => exact storesTo_runPlain (fun u hu => (sameData_startLoop hu).storesTo _) h
  case bitSet | bitClr | bitTgl => exact storesTo_runPlain (fun u hu => (sameData_changeSreg hu).storesTo _) h
  case bitTst | bitXor => exact storesTo_runPlain (fun u hu => (sameData_testSreg hu).storesTo _) h
  case pushSts =>
    refine storesTo_runPlain (fun u hu => ?_) h
    obtain ⟨_, rfl⟩ := pushStatus_eq_next.1 hu
    exact SameData.storesTo ⟨rfl, rfl⟩ _
  case popSts => exact storesTo_runPlain (fun u hu => (sameData_popStatus hu).storesTo _) h
  case nop | idle | bitrev =>
    refine storesTo_runPlain (fun u hu => ?_) h
    cases hu
    exact SameData.storesTo ⟨rfl, rfl⟩ _

end Sys2Proof.Machine

namespace Sys2Proof.Safety
open Sys2Proof.Machine

/-- Settles O51: the agents, interrupt entry and the instructions leave what the launch fixes. -/
theorem programTextFixed : Obligations.ProgramTextFixed := by
  intro s t h
  simpa only [launchFields, Prod.mk.injEq] using step_launchFields h

/-- Settles O46: an instruction stores to the words that its meaning computes, and none of its effects is on the program text. -/
theorem memoryFrame : Obligations.MemoryFrame := by
  intro i s t h
  obtain ⟨outside, unstored⟩ := exec_storesTo h
  exact ⟨outside, unstored, (Prod.ext_iff.1 (exec_launchFields h)).1⟩

end Sys2Proof.Safety
end

section
/-! CERTIFICATE. The decoder reads the fields of every well-formed term back, with any fields after them (`readInstr_pack`); so the
terms that it gives of a word are the well-formed ones that encode to the word (`decode_eq_ok_iff`). -/

namespace Sys2Proof.Laws

/-! ### A reader before others

Each reader takes the fields that the encoder writes for its operand and leaves the fields after them to the next reader. -/

section
variable {β : Type} (fs : List Field)

@[simp] theorem bind_readBits {w v : Nat} (h : v < 2 ^ w) (f : Nat → Reader β) :
    (readBits w >>= f) (pack ((w, v) :: fs)) = f v (pack fs) :=
  bind_of_eq (readBits_pack h fs)

@[simp] theorem bind_readImm6 (v : BitVec 6) (f : BitVec 6 → Reader β) :
    (readImm6 >>= f) (pack (imm6Bits v ++ fs)) = f v (pack fs) :=
  bind_of_eq (readImm6_pack v fs)

@[simp] theorem bind_readImm16 (v : BitVec 16) (f : BitVec 16 → Reader β) :
    (readImm16 >>= f) (pack (imm16Bits v ++ fs)) = f v (pack fs) :=
  bind_of_eq (readImm16_pack v fs)

@[simp] theorem bind_readImm24 (v : BitVec 24) (f : BitVec 24 → Reader β) :
    (readImm24 >>= f) (pack (imm24Bits v ++ fs)) = f v (pack fs) :=
  bind_of_eq (readImm24_pack v fs)

@[simp] theorem bind_readImm32 (v : BitVec 32) (f : BitVec 32 → Reader β) :
    (readImm32 >>= f) (pack (imm32Bits v ++ fs)) = f v (pack fs) :=
  bind_of_eq (readImm32_pack v fs)

@[simp] theorem bind_readIdx8 (v : Fin 8) (f : Fin 8 → Reader β) :
    (readIdx8 >>= f) (pack (idx8Bits v ++ fs)) = f v (pack fs) :=
  bind_of_eq (readIdx8_pack v fs)

@[simp] theorem bind_readIdx16 (v : Fin 16) (f : Fin 16 → Reader β) :
    (readIdx16 >>= f) (pack (idx16Bits v ++ fs)) = f v (pack fs) :=
  bind_of_eq (readIdx16_pack v fs)

@[simp] theorem bind_readFlag (v : Bool) (f : Bool → Reader β) :
    (readFlag >>= f) (pack (flagBits v ++ fs)) = f v (pack fs) :=
  bind_of_eq (readFlag_pack v fs)

@[simp] theorem bind_readBus (v : Bus) (f : Bus → Reader β) :
    (readBus >>= f) (pack (busBits v ++ fs)) = f v (pack fs) :=
  bind_of_eq (readBus_pack v fs)

@[simp] theorem bind_readDir (v : Dir) (f : Dir → Reader β) :
    (readDir >>= f) (pack (dirBits v ++ fs)) = f v (pack fs) :=
  bind_of_eq (readDir_pack v fs)

@[simp] theorem bind_readCond {c : CondCode} (h : c ≠ .lce) (f : CondCode → Reader β) :
    (readCond >>= f) (pack (condBits c ++ fs)) = f c (pack fs) :=
  bind_of_eq (readCond_pack h fs)

@[simp] theorem bind_readTerm {c : CondCode} (h : c ≠ .notLce) (f : CondCode → Reader β) :
    (readTerm >>= f) (pack (termBits c ++ fs)) = f c (pack fs) :=
  bind_of_eq (readTerm_pack h fs)

@[simp] theorem bind_readUreg (u : UReg) (f : UReg → Reader β) :
    (readUreg >>= f) (pack (uregBits u ++ fs)) = f u (pack fs) :=
  bind_of_eq (readUreg_pack u fs)

@[simp] theorem bind_readSreg (r : SReg) (f : SReg → Reader β) :
    (readSreg >>= f) (pack (sregBits r ++ fs)) = f r (pack fs) :=
  bind_of_eq (readSreg_pack r fs)

@[simp] theorem bind_readCompute {c : Compute} (h : checkCompute c = none) (f : Compute → Reader β) :
    (readCompute >>= f) (pack (computeBits c ++ fs)) = f c (pack fs) :=
  bind_of_eq (readCompute_pack h fs)

@[simp] theorem bind_readClause {cl : Clause} (h : checkClause cl = none) (f : Clause → Reader β) :
    (readClause >>= f) (pack (clauseBits cl ++ fs)) = f cl (pack fs) :=
  bind_of_eq (readClause_pack h fs)

@[simp] theorem bind_readTarget (t : Target) (f : Target → Reader β) :
    (readTarget >>= f) (pack (targetBits t ++ fs)) = f t (pack fs) :=
  bind_of_eq (readTarget_pack t fs)

@[simp] theorem pure_pack {α : Type} (a : α) : (pure a : Reader α) (pack fs) = some (a, pack fs) := rfl

end

/-! ### Openings -/

theorem readInstr_family5 {k : Nat} (h : k < 2 ^ 3) (fs : List Field) :
    readInstr (pack ((3, 5) :: (3, k) :: fs)) = readFamily5 k (pack fs) :=
  (bind_readBits _ (by decide) _).trans (bind_readBits _ h _)

theorem readInstr_family6 {k : Nat} (h : k < 2 ^ 3) (fs : List Field) :
    readInstr (pack ((3, 6) :: (3, k) :: fs)) = readFamily6 k (pack fs) :=
  (bind_readBits _ (by decide) _).trans (bind_readBits _ h _)

theorem readInstr_family7 {k : Nat} (h : k < 2 ^ 6) (fs : List Field) :
    readInstr (pack ((3, 7) :: (6, k) :: fs)) = readFamily7 k (pack fs) :=
  (bind_readBits _ (by decide) _).trans (bind_readBits _ h _)

/-! ### What well-formedness gives the readers -/

/-- A list of constraints is met exactly where each of them is. -/
@[simp] theorem firstOf_cons_eq_none {c : Option IllFormed} {cs : List (Option IllFormed)} :
    firstOf (c :: cs) = none ↔ c = none ∧ firstOf cs = none := by
  cases c <;> simp [firstOf]

@[simp] theorem broken_eq_none {b : Bool} {e : IllFormed} : broken b e = none ↔ b = false := by
  cases b <;> simp [broken]

/-- The condition after IF is one of those that `readCond` gives back (10_state R36). -/
theorem checkCond_eq_none {c : CondCode} : checkCond c = none ↔ c ≠ .lce := by
  simp [checkCond]

/-- The constraints of a conditional term begin with the one on its condition. -/
theorem condition_and_next {c : CondCode} {next : Option IllFormed} {rest : List (Option IllFormed)}
    (h : firstOf (checkCond c :: next :: rest) = none) : c ≠ .lce ∧ next = none ∧ firstOf rest = none := by
  simpa [checkCond_eq_none] using h

/-! ### Terms -/

/-- The decoder reads a well-formed term from its fields and leaves the fields after them. The opening picks the template; its
readers, of which only those of a condition, a termination, an operation and a clause ask for a constraint, then take the
operands in turn. (`bind_pure_comp` would turn the last reader into a map, which has no rule here.) -/
theorem readInstr_pack {i : Instr} (h : i.WellFormed) (fs : List Field) :
    readInstr (pack (i.fields ++ fs)) = some (i, pack fs) := by
  cases i
  case computeDualMove =>
    obtain ⟨hc, -⟩ := firstOf_cons_eq_none.1 h
    simp [Instr.fields, readInstr, hc, -bind_pure_comp]
  case jumpIndMove | jumpShortMove =>
    obtain ⟨hcond, hc, -⟩ := condition_and_next h
    simp [Instr.fields, readInstr, hcond, hc, -bind_pure_comp]
  case storePreData32 | loadPreData32 => simp [Instr.fields, readInstr, -bind_pure_comp]
  case storePostUreg | storePreUreg | loadPostUreg | loadPreUreg | storePostData6 | storePreData6 | loadPostData6 |
      loadPreData6 =>
    obtain ⟨hcond, hc, -⟩ := condition_and_next h
    simp [Instr.fields, readInstr_family5, readFamily5, hcond, hc, -bind_pure_comp]
  case moveUreg =>
    obtain ⟨hcond, hc, -⟩ := condition_and_next h
    simp [Instr.fields, readInstr_family6, readFamily6, hcond, hc, -bind_pure_comp]
  case doCountImm | storeDirect | loadDirect | storePostImm | loadImm =>
    simp [Instr.fields, readInstr_family6, readFamily6, -bind_pure_comp]
  case ifCompute | shiftStorePost | shiftLoadPost | modifyReg =>
    obtain ⟨hcond, hc, -⟩ := condition_and_next h
    simp [Instr.fields, readInstr_family7, readFamily7, hcond, hc, -bind_pure_comp]
  case jumpDirect | jumpRel =>
    obtain ⟨hcond, -⟩ := condition_and_next h
    simp [Instr.fields, readInstr_family7, readFamily7, hcond, -bind_pure_comp]
  case callDirect | callRel =>
    simp [Instr.fields, readInstr_family7, readFamily7, checkCond_eq_none.1 h, -bind_pure_comp]
  case jumpInd | jumpShort =>
    obtain ⟨hcond, -, h⟩ := condition_and_next h
    obtain ⟨hcl, -⟩ := firstOf_cons_eq_none.1 h
    simp [Instr.fields, readInstr_family7, readFamily7, hcond, hcl, -bind_pure_comp]
  case callInd | callShort | rts | rti =>
    obtain ⟨hcond, hcl, -⟩ := condition_and_next h
    simp [Instr.fields, readInstr_family7, readFamily7, hcond, hcl, -bind_pure_comp]
  case doUntil target term =>
    have hterm : term ≠ .notLce := by
      rintro rfl
      cases h
    simp [Instr.fields, readInstr_family7, readFamily7, hterm, -bind_pure_comp]
  case modifyImm | bitrev | doCountUreg | nop | idle | bitSet | bitClr | bitTgl | bitTst | bitXor | pushSts | popSts =>
    simp [Instr.fields, readInstr_family7, readFamily7, -bind_pure_comp]

open EncodingFits in
/-- Every term fits into the instruction word (30_encoding R90). -/
theorem encodingFits (i : Instr) : EncodingFits.Statement i := by
  cases i
  exacts [computeDualMove .., ifCompute .., storePostUreg .., storePreUreg .., loadPostUreg .., loadPreUreg ..,
    storePostData6 .., storePreData6 .., loadPostData6 .., loadPreData6 .., moveUreg .., shiftStorePost ..,
    shiftLoadPost .., modifyReg .., storeDirect .., loadDirect .., storePreData32 .., loadPreData32 .., storePostImm ..,
    loadImm .., modifyImm .., bitrev .., jumpDirect .., jumpRel .., callDirect .., callRel .., jumpInd .., jumpShort ..,
    callInd .., callShort .., jumpIndMove .., jumpShortMove .., rts .., rti .., doCountImm .., doCountUreg .., doUntil ..,
    nop, idle, bitSet .., bitClr .., bitTgl .., bitTst .., bitXor .., pushSts, popSts]

theorem readInstr_termNumber {i : Instr} (h : i.WellFormed) : readInstr (termNumber i).toNat = some (i, 0) := by
  rw [termNumber_toNat (encodingFits i)]
  simpa [pack] using readInstr_pack h []

/-! ### Numbers and words -/

/-- The numbers that are instructions are those of the well-formed terms (30_encoding R96). -/
theorem termOf_eq_ok_iff {n : IWord} {i : Instr} : termOf n = .ok i ↔ i.WellFormed ∧ termNumber i = n := by
  constructor
  · intro h
    unfold termOf at h
    split at h
    · cases h
    · split at h
      · cases h
      · split at h
        · cases h
          exact ⟨‹_›, ‹_›⟩
        · cases h
  · rintro ⟨hi, rfl⟩
    simp [termOf, readInstr_termNumber hi, hi]

theorem decode_eq_ok_iff {w : IWord} {i : Instr} : decode w = .ok i ↔ i.WellFormed ∧ encode i = w := by
  rw [decode, termOf_eq_ok_iff, encode_eq_iff]

end Sys2Proof.Laws

namespace Sys2Proof.Safety
open Sys2Proof.Laws

/-- Settles O1: a well-formed term is what the decoder gives of its word, so the word determines the term. -/
theorem decodeEncodeRoundTrip : Obligations.DecodeEncodeRoundTrip := by
  have roundTrip : ∀ i : Instr, i.WellFormed → decode (encode i) = .ok i := fun _ hi => decode_eq_ok_iff.2 ⟨hi, rfl⟩
  refine ⟨roundTrip, fun i j hi hj hij => ?_⟩
  exact Except.ok.inj ((roundTrip i hi).symm.trans (hij ▸ roundTrip j hj))

/-- Settles O2. -/
theorem decodeAcceptsOnlyEncodings : Obligations.DecodeAcceptsOnlyEncodings := by
  refine fun w => ⟨fun i => decode_eq_ok_iff, fun unencoded => ?_⟩
  cases h : decode w with
  | error e => exact ⟨e, rfl⟩
  | ok i =>
    obtain ⟨hi, hw⟩ := decode_eq_ok_iff.1 h
    exact absurd hw (unencoded i hi)

/-- Settles O3: each number is its term's, and the term is well-formed. -/
theorem sampleWordsDecode : Obligations.SampleWordsDecode := by
  simp only [Obligations.SampleWordsDecode, decode_wordCode, termOf_eq_ok_iff]
  decide

end Sys2Proof.Safety
end

section
/-! CERTIFICATE. DAG addressing: the address that an index puts out, and the index after a post-modify. In a circular buffer the new
index is the old one moved modulo the length (`circUpdate_toNat`), so any run of updates stays in the buffer and its place in it is
known (`repeated_modifyIndex`). -/

namespace Sys2Proof.Machine
open Sys2Proof.Safety

/-! ### Reads of the registers of one index -/

theorem getI_eq (s : State) (n : Fin 16) : s.getI n = uregRead s (.i n) := congrArg (fun d : DagRegs => d.i[n]) (dagOf_eq s n)
theorem getM_eq (s : State) (n : Fin 16) : s.getM n = uregRead s (.m n) := congrArg (fun d : DagRegs => d.m[n]) (dagOf_eq s n)
theorem getL_eq (s : State) (n : Fin 16) : s.getL n = uregRead s (.l n) := congrArg (fun d : DagRegs => d.l[n]) (dagOf_eq s n)
theorem getB_eq (s : State) (n : Fin 16) : s.getB n = uregRead s (.b n) := congrArg (fun d : DagRegs => d.b[n]) (dagOf_eq s n)

theorem dagOf_setDag (n : Fin 16) (d : DagRegs) (s : State) : (setDag n d s).dagOf n = d := by
  have h : (setDag n d s).dagSelAlt n = s.dagSelAlt n := rfl
  unfold State.dagOf
  rw [h]
  unfold setDag
  cases s.dagSelAlt n <;> rfl

/-- A post-modify writes I[n] (40_dag_addressing R112). -/
theorem getI_indexUpdated (n : Fin 16) (m : Word) (s : State) : (indexUpdated n m s).getI n = circUpdate s n m := by
  show ((setI n (circUpdate s n m) s).dagOf n).i[n] = _
  rw [setI, dagOf_setDag]
  simp

theorem getL_indexUpdated (n : Fin 16) (m : Word) (s : State) : (indexUpdated n m s).getL n = s.getL n := by
  show ((setI n (circUpdate s n m) s).dagOf n).l[n] = _
  rw [setI, dagOf_setDag]
  rfl

theorem getB_indexUpdated (n : Fin 16) (m : Word) (s : State) : (indexUpdated n m s).getB n = s.getB n := by
  show ((setI n (circUpdate s n m) s).dagOf n).b[n] = _
  rw [setI, dagOf_setDag]
  rfl

theorem circularOn_indexUpdated (n : Fin 16) (m : Word) (s : State) :
    circularOn (indexUpdated n m s) n = circularOn s n := by
  rw [circularOn, circularOn, getL_indexUpdated]
  rfl

/-! ### When a post-modify is made -/

/-- An update outside its precondition stops (40_dag_addressing R116, D18). -/
theorem modifyIndex_fault {s : State} {n : Fin 16} {m : Word} (h : ¬ IndexOk s n m) :
    modifyIndex n m s = .fault .circularPrecondition := by
  obtain ⟨on, outside⟩ := Classical.not_imp.1 h
  have refused : circularOk (s.getB n) (s.getL n) (s.getI n) m = false := by
    rw [← Bool.not_eq_true]
    simpa [circularOk, and_assoc] using outside
  rw [modifyIndex, circular_eq, if_pos on, refused]
  rfl

/-- A post-modify that is made is one inside its precondition. -/
theorem modifyIndex_eq_next_iff {s t : State} {n : Fin 16} {m : Word} :
    modifyIndex n m s = .next t ↔ IndexOk s n m ∧ t = indexUpdated n m s := by
  by_cases h : IndexOk s n m
  · rw [modifyIndex_ok h]
    exact ⟨fun e => ⟨h, (Host.Outcome.next.inj e).symm⟩, fun e => congrArg _ e.2.symm⟩
  · rw [modifyIndex_fault h]
    exact ⟨nofun, fun e => absurd e.1 h⟩

/-! ### The index in its buffer -/

/-- Circular buffering is active for index `n`, and its buffer lies below the top of the address space. -/
abbrev BufferFits (s : State) (n : Fin 16) : Prop :=
  circularOn s n = true ∧ (s.getB n).toNat + (s.getL n).toNat ≤ 2 ^ 32

theorem toNat_ofInt_of_bounds {t : Int} (h0 : 0 ≤ t) (h : t < 2 ^ 32) : ((BitVec.ofInt 32 t).toNat : Int) = t := by
  rw [BitVec.toNat_ofInt]
  omega

/-- `CircUpdate` moves the index by `m` modulo the length of its buffer, from the base on (40_dag_addressing R116). -/
theorem circUpdate_toNat {s : State} {n : Fin 16} {m : Word} (fits : BufferFits s n) (ok : IndexOk s n m) :
    ((circUpdate s n m).toNat : Int) =
      (s.getB n).toNat + ((s.getI n).toNat - (s.getB n).toNat + m.toInt) % (s.getL n).toNat := by
  obtain ⟨on, top⟩ := fits
  obtain ⟨low, high, short⟩ := ok on
  unfold circUpdate wrapsUp wrapsDown indexSum
  generalize (s.getB n).toNat = b at *
  generalize (s.getL n).toNat = l at *
  generalize (s.getI n).toNat = i at *
  generalize m.toInt = k at *
  simp only [on, Bool.true_and, Bool.and_eq_true, decide_eq_true_eq]
  split
  case isTrue up =>
    rw [toNat_ofInt_of_bounds (by omega) (by omega), ← Int.sub_emod_right, Int.emod_eq_of_lt (by omega) (by omega)]
    omega
  case isFalse up =>
    split
    case isTrue down =>
      rw [toNat_ofInt_of_bounds (by omega) (by omega), ← Int.add_emod_right, Int.emod_eq_of_lt (by omega) (by omega)]
      omega
    case isFalse down =>
      rw [toNat_ofInt_of_bounds (by omega) (by omega), Int.emod_eq_of_lt (by omega) (by omega)]
      omega

theorem circUpdate_in_buffer {s : State} {n : Fin 16} {m : Word} (fits : BufferFits s n) (ok : IndexOk s n m) :
    (s.getB n).toNat ≤ (circUpdate s n m).toNat ∧ (circUpdate s n m).toNat < (s.getB n).toNat + (s.getL n).toNat := by
  have place := circUpdate_toNat fits ok
  obtain ⟨low, high, -⟩ := ok fits.1
  have nonneg := Int.emod_nonneg ((s.getI n).toNat - (s.getB n).toNat + m.toInt) (b := (s.getL n).toNat) (by omega)
  have lt := Int.emod_lt_of_pos ((s.getI n).toNat - (s.getB n).toNat + m.toInt) (b := (s.getL n).toNat) (by omega)
  omega

theorem bufferFits_indexUpdated {s : State} {n : Fin 16} (m : Word) (fits : BufferFits s n) :
    BufferFits (indexUpdated n m s) n := by
  rw [BufferFits, circularOn_indexUpdated, getB_indexUpdated, getL_indexUpdated]
  exact fits

/-- An update leaves its precondition for the next one by the same modifier. -/
theorem indexOk_indexUpdated {s : State} {n : Fin 16} {m : Word} (fits : BufferFits s n) (ok : IndexOk s n m) :
    IndexOk (indexUpdated n m s) n m := by
  obtain ⟨low, high⟩ := circUpdate_in_buffer fits ok
  obtain ⟨-, -, short⟩ := ok fits.1
  intro _
  rw [getI_indexUpdated, getB_indexUpdated, getL_indexUpdated]
  exact ⟨low, high, short⟩

/-- So many updates by one modifier move the index by so many times it, modulo the length of its buffer. -/
theorem repeated_modifyIndex {n : Fin 16} {m : Word} (k : Nat) {s : State} (fits : BufferFits s n) (ok : IndexOk s n m) :
    ∃ t, repeated (modifyIndex n m) k s = .next t ∧
      ((t.getI n).toNat : Int) =
        (s.getB n).toNat + ((s.getI n).toNat - (s.getB n).toNat + k * m.toInt) % (s.getL n).toNat := by
  induction k generalizing s with
  | zero =>
    obtain ⟨low, high, -⟩ := ok fits.1
    refine ⟨s, rfl, ?_⟩
    rw [Int.emod_eq_of_lt (by omega) (by omega)]
    omega
  | succ k ih =>
    obtain ⟨t, run, place⟩ := ih (bufferFits_indexUpdated m fits) (indexOk_indexUpdated fits ok)
    refine ⟨t, by rw [repeated, modifyIndex_ok ok]; exact run, ?_⟩
    rw [place, getI_indexUpdated, getB_indexUpdated, getL_indexUpdated, circUpdate_toNat fits ok, add_sub_cancel_left,
      Int.emod_add_emod]
    congr 2
    push_cast
    ring

/-! ### The address put out -/

theorem getLsbD_bitrev32 (v : Word) {k : Nat} (h : k < 32) : (bitrev32 v).getLsbD k = v.getLsbD (31 - k) := by
  rw [bitrev32, BitVec.getLsbD_reverse, BitVec.getMsbD]
  simp [h]

/-- The address through I0 or I8 in its bit-reverse mode (40_dag_addressing R119). -/
theorem getLsbD_addrOut_reversed {s : State} {n : Fin 16} (h : (n.val = 0 ∧ s.br0) ∨ (n.val = 8 ∧ s.br8)) (a : Word) {k : Nat}
    (hk : k < 32) : (s.addrOut n a).getLsbD k = a.getLsbD (31 - k) := by
  rw [State.addrOut, if_pos h, getLsbD_bitrev32 a hk]

theorem addrOut_plain {s : State} {n : Fin 16} (h : ¬ ((n.val = 0 ∧ s.br0) ∨ (n.val = 8 ∧ s.br8))) (a : Word) :
    s.addrOut n a = a := if_neg h

end Sys2Proof.Machine

namespace Sys2Proof.Safety
open Sys2Proof.Machine

/-- Settles O30. -/
theorem indexUpdateResult : Obligations.IndexUpdateResult := fun n m s =>
  ⟨⟨getI_eq s n, getM_eq s n, getL_eq s n, getB_eq s n⟩, setI_eq n m s, modifyIndex_ok, modifyIndex_fault⟩

/-- Settles O31: an update that is made is inside its precondition, and moves the index modulo the length. -/
theorem circularUpdateStaysInBuffer : Obligations.CircularUpdateStaysInBuffer := by
  intro n m s t on top step
  obtain ⟨ok, rfl⟩ := modifyIndex_eq_next_iff.1 step
  obtain ⟨low, high⟩ := circUpdate_in_buffer ⟨on, top⟩ ok
  rw [getI_indexUpdated]
  exact ⟨low, high, getB_indexUpdated n m s, getL_indexUpdated n m s⟩

/-- Settles O32: after `k` updates the index is `k * 4` modulo 11. -/
theorem circularWorkedExample : Obligations.CircularWorkedExample := by
  intro s on length base index k
  have fits : BufferFits s 0 := by
    rw [BufferFits, circularOn, on, length, base]
    decide
  have ok : IndexOk s 0 4 := by
    intro _
    rw [length, base, index]
    decide
  obtain ⟨t, run, place⟩ := repeated_modifyIndex k.val fits ok
  have visited : (t.getI 0).toNat = k.val * 4 % 11 := by
    have moved : ((t.getI 0).toNat : Int) = 0 + (0 - 0 + k.val * 4) % 11 := by
      rw [length, base, index] at place
      exact place
    omega
  have listed : ∀ k : Fin 12,
      some (BitVec.ofNat 32 (k.val * 4 % 11)) = ([0, 4, 8, 1, 5, 9, 2, 6, 10, 3, 7, 0] : List Word)[k.val]? := by decide
  refine ⟨t, run, ?_⟩
  rw [← listed k, ← visited, BitVec.ofNat_toNat, BitVec.setWidth_eq]

/-- Settles O33: each form puts out its own address by the bit-reverse rule. -/
theorem bitReversedAddress : Obligations.BitReversedAddress := by
  intro form n m s
  refine ⟨fun reversed k hk => ?_, fun notReversed => ?_, rfl, rfl, fun i => ⟨rfl, rfl⟩⟩
  · cases form with
    | post => exact getLsbD_addrOut_reversed reversed (s.getI n) hk
    | pre => exact getLsbD_addrOut_reversed reversed (s.getI n + m) hk
  · cases form with
    | post => exact addrOut_plain notReversed (s.getI n)
    | pre => exact addrOut_plain notReversed (s.getI n + m)

end Sys2Proof.Safety
end

section
/-! SUPPORT. How an instruction that never branches ends: the shared operations keep its place, a conditional one is its effects or
nothing (`runPlain_whenCond`); and which terms are refused. -/

namespace Sys2Proof.Machine
open Sys2Proof.Safety Sys2Proof.Laws

/-! ### The place of an instruction -/

namespace SamePlace

theorem refl (s : State) : SamePlace s s := ⟨rfl, rfl, rfl, rfl⟩

variable {s t : State} (h : SamePlace s t)
include h

theorem applyCompute (slot : Config.Slot) (c : Compute) (inp : Config.ComputeInput) :
    SamePlace s (applyCompute slot c inp t) :=
  ⟨by simp [h.pc], by simp [h.dly], by simp [h.loopStack], by simp [h.pcStack]⟩

theorem indexUpdated (n : Fin 16) (m : Word) : SamePlace s (indexUpdated n m t) :=
  ⟨h.pc, h.dly, h.loopStack, h.pcStack⟩

theorem formUpdated (form : DagForm) (n : Fin 16) (m : Word) : SamePlace s (formUpdated form n m t) := by
  cases form with
  | post => exact h.indexUpdated n m
  | pre => exact h

theorem wordStored (a v : Word) : SamePlace s (wordStored a v t) := ⟨h.pc, h.dly, h.loopStack, h.pcStack⟩

theorem dataWritten (n : DReg) (v : Word) : SamePlace s (dataWritten n v t) := by
  unfold Safety.dataWritten
  split <;> exact ⟨h.pc, h.dly, h.loopStack, h.pcStack⟩

theorem dagReplaced (n : Fin 16) (d : DagRegs) : SamePlace s (dagReplaced n d t) := by
  unfold Safety.dagReplaced
  split <;> exact ⟨h.pc, h.dly, h.loopStack, h.pcStack⟩

/-- No universal register that an instruction may write is part of the place (10_state R40, D41). -/
theorem uregWritten (u : UReg) (v : Word) : SamePlace s (uregWritten u v t) := by
  cases u
  case r n => exact h.dataWritten n v
  case i n | m n | l n | b n => exact h.dagReplaced n _
  all_goals exact ⟨h.pc, h.dly, h.loopStack, h.pcStack⟩

theorem moveStored (dir : Dir) (a v : Word) : SamePlace s (moveStored dir a v t) := by
  cases dir with
  | store => exact h.wordStored a v
  | load => exact h

theorem moveLoaded (dir : Dir) (d : DReg) (x : Word) : SamePlace s (moveLoaded dir d x t) := by
  cases dir with
  | store => exact h
  | load => exact h.dataWritten d x

end SamePlace

/-! ### Conditional instructions -/

theorem whenCond_of_not_truth {cond : CondCode} {s : State} (h : truth s cond = false) (x : Result) :
    whenCond cond s x = .next s :=
  whenCond_false (by rw [← truth_eq, h]) x

theorem runPlain_fault {s : State} (hs : Sisd s) (r : Fault) : runPlain .plain s (.fault r) = .fault r := by
  unfold runPlain
  rw [run_eq hs (fun _ _ => rfl) fun _ => rfl]
  rfl

section
variable {cond : CondCode} {s : State} (ready : Ready s)
include ready

/-- A conditional instruction is its effects where the condition holds, and else nothing (41_compute_move R140). -/
theorem runPlain_whenCond {x : Result} {t : State} (effects : truth s cond = true → x = .next t) (place : SamePlace s t) :
    runPlain .plain s (whenCond cond s x) = .next (advance (if truth s cond then t else s)) := by
  cases holds : truth s cond with
  | true =>
    rw [whenCond_of_truth holds, effects holds]
    exact runPlain_ready ready place
  | false =>
    rw [whenCond_of_not_truth holds]
    exact runPlain_ready ready (.refl s)

variable {form : DagForm} {bus : Bus} {n : Fin 16} {m : Word} {slot : Config.Slot} {c : Compute}

/-- A conditional store through a DAG beside an operation (41_compute_move R145, R146). -/
theorem runPlain_storeMove {v : Word}
    (ok : truth s cond = true → FormOk form s n m ∧ Admits s bus (s.dagAddr form n m)) :
    runPlain .plain s (whenCond cond s (storeMove form bus n m v slot c s)) =
      .next (advance (if truth s cond then
        applyCompute slot c s.computeInput (wordStored (s.dagAddr form n m) v (formUpdated form n m s)) else s)) := by
  refine runPlain_whenCond ready (fun holds => ?_)
    ((((SamePlace.refl s).formUpdated form n m).wordStored _ v).applyCompute slot c _)
  obtain ⟨index, admits⟩ := ok holds
  exact storeMove_ok index admits

/-- A conditional load through a DAG beside an operation (41_compute_move R147, R148). -/
theorem runPlain_loadMove {u : UReg} {x : Word}
    (ok : truth s cond = true →
      FormOk form s n m ∧ Holds s bus (s.dagAddr form n m) x ∧ writable u x s = true) :
    runPlain .plain s (whenCond cond s (loadMove form bus n m u slot c s)) =
      .next (advance (if truth s cond then
        uregWritten u x (applyCompute slot c s.computeInput (formUpdated form n m s)) else s)) := by
  refine runPlain_whenCond ready (fun holds => ?_)
    ((((SamePlace.refl s).formUpdated form n m).applyCompute slot c _).uregWritten u x)
  obtain ⟨index, word, write⟩ := ok holds
  exact loadMove_ok index word write

end

/-! ### Terms that are refused -/

theorem firstOf_eq_none {checks : List (Option IllFormed)} : firstOf checks = none ↔ ∀ c ∈ checks, c = none := by
  induction checks with
  | nil => simp [firstOf]
  | cons c cs ih => simp [ih]

/-- A term with a broken constraint among those of its template is no instruction (30_encoding R96). -/
theorem not_wellFormed {i : Instr} {checks : List (Option IllFormed)} {check : Option IllFormed}
    (template : i.illFormed = firstOf checks) (mem : check ∈ checks) (brk : check ≠ none) : ¬ i.WellFormed :=
  fun h => brk (firstOf_eq_none.1 (template.symm.trans h) check mem)

theorem checkLoad_ne_none {c : Compute} {d : DReg} (h : d ∈ c.dests) : checkLoad c (.r d) ≠ none := by
  simpa [checkLoad, UReg.amongDregs] using h

theorem checkDag_ne_none {bus : Bus} {u : UReg} (h : u.ofDag bus = true) : checkDag bus u ≠ none := by
  simpa [checkDag] using h

theorem checkUreg_ne_none {u : UReg} (h : u.readable = false) : checkUreg u ≠ none := by
  simpa [checkUreg] using h

/-- A bus's DAG has the eight numbers that its operands name (20_memory R65). -/
theorem dagNumber_iff (bus : Bus) (n : Fin 16) : (UReg.i n).ofDag bus = true ↔ ∃ k, n = dagIndex bus k := by
  revert n
  cases bus <;> decide

theorem ofDag_iff {bus : Bus} {u : UReg} :
    u.ofDag bus = true ↔
      ∃ k : Fin 8, u ∈ [.i (dagIndex bus k), .m (dagIndex bus k), .l (dagIndex bus k), .b (dagIndex bus k)] := by
  cases u
  case i n | m n | l n | b n => exact (dagNumber_iff bus n).trans (by simp)
  all_goals simp [UReg.ofDag]

theorem readable_eq_false_iff {u : UReg} :
    u.readable = false ↔ u ∈ [.pc, .pcstk, .pcstkp, .faddr, .daddr, .curlcntr, .ustat2, .ustat3, .ustat4, .flags, .stky,
      .imaskp, .px, .px1, .px2] ∨ ∃ k, u = .s k := by
  cases u <;> simp [UReg.readable]

end Sys2Proof.Machine
end

section
/-! CERTIFICATE. Types 1 to 7 and 19: the effects of each instruction, then its end. A store or a load through a DAG is
`runPlain_storeMove` or `runPlain_loadMove`; below them stand a register moved to itself, the writes of an operation, and the two
accesses of type 1. -/

namespace Sys2Proof.Machine
open Sys2Proof.Safety Sys2Proof.Laws

/-! ### Moves between registers -/

/-- The bits under a mask written back, and the others kept. -/
theorem masked_write_back {y m : Word} (hy : y &&& m = 0) (x : Word) :
    ((x &&& m ||| y) &&& m) ||| (x &&& ~~~m) = x := by
  apply BitVec.eq_of_getLsbD_eq
  intro i hi
  have clear := congrArg (·.getLsbD i) hy
  simp only [BitVec.getLsbD_and, BitVec.getLsbD_or, BitVec.getLsbD_not, hi, decide_true, Bool.true_and] at clear ⊢
  cases hm : m.getLsbD i <;> simp_all

theorem dataWritten_self (n : DReg) (s : State) : dataWritten n (dataRead s n) s = s := by
  unfold dataWritten dataRead
  split <;> simp

theorem dagReplaced_self (n : Fin 16) (s : State) : dagReplaced n (dagRead s n) s = s := by
  unfold dagReplaced dagRead
  split <;> rfl

theorem pointerBits_outside (b : BitVec 4) :
    (b.setWidth 32 <<< 24 : Word) &&& 0xF0FFFFFF = 0 ∧ (b.setWidth 32 <<< 24 : Word) &&& 0xF0F0FFF0 = 0 := by
  revert b
  decide

theorem summaryBit_outside (b : Bool) :
    (if b then 0x00004000 else 0 : Word) &&& 0xFFFFBFFF = 0 ∧ (if b then 0x00004000 else 0 : Word) &&& 0x80000201 = 0 := by
  cases b <;> decide

/-- A register other than MODE1 and B written with what it reads as is unchanged (41_compute_move R153). -/
theorem uregWritten_self {u : UReg} (hm : u ≠ .mode1) (hb : ∀ n, u ≠ .b n) (s : State) :
    uregWritten u (uregRead s u) s = s := by
  cases u
  case mode1 => exact absurd rfl hm
  case b n => exact absurd rfl (hb n)
  case r n => exact dataWritten_self n s
  case i n | m n | l n => simpa [uregWritten, uregRead] using dagReplaced_self n s
  case laddr => simp [uregWritten]
  case irptl => exact congrArg (fun w => { s with irptl := w }) (masked_write_back (summaryBit_outside _).1 s.irptl)
  case lirptl => exact congrArg (fun w => { s with lirptl := w }) (masked_write_back (pointerBits_outside _).1 s.lirptl)
  all_goals rfl

/-- Where no reserved bit is set, every register may be written with what it reads as. -/
theorem writable_self {u : UReg} {s : State} (clear : ReservedClear s) (readable : u.readable = true) :
    writable u (uregRead s u) s = true := by
  obtain ⟨-, mode1, -, mode2, irptl, imask, lirptl⟩ := clear
  cases u
  case mode1 => exact beq_iff_eq.2 mode1
  case mode2 => exact beq_iff_eq.2 mode2
  case irptl =>
    have kept : s.irptl &&& 0x80000201 = 0 := clear_of_clear_more irptl (by decide)
    exact beq_iff_eq.2 (and_xor_eq_zero (or_clear (and_clear kept _) (summaryBit_outside _).2) kept)
  case imask => simpa [writable, uregRead] using imask
  case lirptl =>
    have kept : s.lirptl &&& 0xF0F0FFF0 = 0 := clear_of_clear_more lirptl (by decide)
    have read : uregRead s .lirptl &&& 0xF0F0FFF0 = 0 := or_clear (and_clear kept _) (pointerBits_outside _).2
    simpa [writable] using read
  all_goals exact readable

/-- Type 5: the check of a write sees after the operation what it saw before it (41_compute_move R153). -/
theorem exec_moveUreg {cond : CondCode} {c : Compute} {u1 u2 : UReg} {s : State} (ready : Ready s)
    (ok : truth s cond = true → u2.readable = true ∧ writable u1 (uregRead s u2) s = true) :
    exec (.moveUreg cond c u1 u2) s = .next (advance (if truth s cond then
      uregWritten u1 (uregRead s u2) (applyCompute .compute c s.computeInput s) else s)) := by
  refine runPlain_whenCond ready (fun holds => ?_) (((SamePlace.refl s).applyCompute .compute c _).uregWritten u1 _)
  obtain ⟨readable, write⟩ := ok holds
  obtain ⟨lirptl, pointers, irptl⟩ := checks_of_update .pre 0 0 .compute c s.computeInput s
  rw [readUreg_eq readable, andThen_next]
  exact writeUreg_ok write (applyCompute_imask ..) lirptl pointers irptl

/-! ### What an operation writes -/

theorem mem_dregAll (d : DReg) : d ∈ DReg.all := by
  revert d
  decide

theorem dataRead_setR (k n : DReg) (v : Word) (s : State) :
    dataRead (setR k v s) n = if n = k then v else dataRead s n := by
  have sel : altData (setR k v s) n = altData s n := rfl
  unfold dataRead
  rw [sel]
  by_cases hk : n = k
  · subst hk
    rw [if_pos rfl, altData_eq]
    cases hs : s.dregSelAlt n <;> simp [setR, hs]
  · obtain ⟨prim, alt⟩ := setR_ne (Ne.symm hk) v s
    rw [if_neg hk, prim, alt]

section
variable (val : DReg → Word) (ds : List DReg) (s : State)

theorem dataRead_foldl_setR (n : DReg) :
    dataRead (ds.foldl (fun t d => setR d (val d) t) s) n = if n ∈ ds then val n else dataRead s n := by
  induction ds generalizing s with
  | nil => simp
  | cons d ds ih =>
    rw [List.foldl_cons, ih, dataRead_setR]
    by_cases hn : n ∈ ds
    · simp [hn]
    · by_cases hd : n = d
      · simp [hd]
      · simp [hn, hd]

/-- Writes of data registers leave the copy of each register that MODE1 does not select (10_state R12). -/
theorem foldl_setR_unselected (n : DReg) :
    (altData s n = true → (ds.foldl (fun t d => setR d (val d) t) s).regs[n] = s.regs[n]) ∧
      (altData s n = false → (ds.foldl (fun t d => setR d (val d) t) s).regsAlt[n] = s.regsAlt[n]) := by
  induction ds generalizing s with
  | nil => exact ⟨fun _ => rfl, fun _ => rfl⟩
  | cons d ds ih =>
    obtain ⟨prim, alt⟩ := setR_unselected d n (val d) s
    obtain ⟨prims, alts⟩ := ih (setR d (val d) s)
    exact ⟨fun h => (prims h).trans (prim h), fun h => (alts h).trans (alt h)⟩

end

theorem applyCompute_eq_computeWrites {c : Compute} (h : c ≠ .none) (slot : Config.Slot) (inp : Config.ComputeInput)
    (s : State) : applyCompute slot c inp s = computeWrites slot c inp s := by
  cases c
  case none => exact absurd rfl h
  all_goals rfl

section
variable (slot : Config.Slot) (c : Compute) (inp : Config.ComputeInput) (s : State)

theorem dataRead_computeWrites (n : DReg) :
    dataRead (computeWrites slot c inp s) n =
      if n ∈ c.dests then Config.computeValue slot c inp n else dataRead s n := by
  rw [computeWrites_eq]
  exact dataRead_foldl_setR _ c.dests s n

theorem computeWrites_regs_unselected (n : DReg) :
    if altData s n then (computeWrites slot c inp s).regs[n] = s.regs[n]
    else (computeWrites slot c inp s).regsAlt[n] = s.regsAlt[n] := by
  obtain ⟨prim, alt⟩ := foldl_setR_unselected (Config.computeValue slot c inp) c.dests s n
  cases h : altData s n with
  | true => exact prim h
  | false => exact alt h

/-- An operation writes the MR that MODE1 selects and leaves the other (10_state R13). -/
theorem computeWrites_mr :
    (operandsRead (computeWrites slot c inp s)).mr = Config.computeMr slot c inp ∧
      if altMr s then (computeWrites slot c inp s).mr = s.mr else (computeWrites slot c inp s).mrAlt = s.mrAlt := by
  have sel : altMr (computeWrites slot c inp s) = altMr s := rfl
  unfold operandsRead
  rw [sel, altMr_eq]
  cases h : s.srcu <;> simp [computeWrites, setMr, h]

end

/-! ### Both moves of type 1 -/

/-- A post-modify leaves the registers of every other number (40_dag_addressing R112). -/
theorem dagEntry_indexUpdated {n k : Fin 16} (hk : k ≠ n) (m : Word) (s : State) :
    dagEntry ((indexUpdated n m s).dagOf k) k = dagEntry (s.dagOf k) k := by
  obtain ⟨prim, alt⟩ := setDag_ne (s := s) (fun j hj => (dagEntry_set_ne hj (s.dagOf n) (circUpdate s n m)).1) hk
  show dagEntry (if s.dagSelAlt k then _ else _) k = dagEntry (if s.dagSelAlt k then s.dagAlt else s.dag) k
  cases s.dagSelAlt k with
  | true => exact alt
  | false => exact prim

theorem indexOk_indexUpdated_other {n k : Fin 16} (hk : k ≠ n) (m : Word) {m' : Word} {s : State} (ok : IndexOk s k m') :
    IndexOk (indexUpdated n m s) k m' := by
  have entry := dagEntry_indexUpdated hk m s
  simp only [dagEntry, List.cons.injEq] at entry
  obtain ⟨hi, -, hl, hb, -⟩ := entry
  rw [IndexOk, circularOn, State.getB, State.getI, State.getL, hi, hl, hb]
  exact ok

/-- DAG1 and DAG2 have no number in common (20_memory R65). -/
theorem dagIndex_pm_ne_dm (ic ia : Fin 8) : dagIndex .pm ic ≠ dagIndex .dm ia := by
  intro h
  have := congrArg Fin.val h
  simp only [dagIndex] at this
  omega

theorem dualConflict_iff {a1 a2 : Word} {dmDir pmDir : Dir} :
    dualConflict a1 a2 dmDir pmDir = true ↔ a1 = a2 ∧ (dmDir = .store ∨ pmDir = .store) := by
  simp [dualConflict]

/-- A post-modify leaves what an access looks at. -/
theorem moveFits_indexUpdated {dir : Dir} {s : State} {bus : Bus} {a x : Word} (fits : MoveFits dir s bus a x) (n : Fin 16)
    (m : Word) : MoveFits dir (indexUpdated n m s) bus a x := by
  obtain ⟨admits, holds⟩ := fits
  exact ⟨fun h => admits_congr (admits h) rfl rfl, fun h => holds_congr (holds h) rfl rfl rfl rfl⟩

theorem moveStored_indexUpdated (dir : Dir) (a v : Word) (n : Fin 16) (m : Word) (s : State) :
    moveStored dir a v (indexUpdated n m s) = indexUpdated n m (moveStored dir a v s) := by
  cases dir <;> rfl

/-- An access that fits stores its value, or gives the word that its move then loads. -/
theorem dualAccess_ok {dir : Dir} {s : State} {bus : Bus} {a x : Word} (fits : MoveFits dir s bus a x) (v : Word) :
    ∃ y, dualAccess dir bus a v s = .next (y, moveStored dir a v s) ∧
      ∀ d t, dualResult dir d y t = moveLoaded dir d x t := by
  cases dir with
  | store =>
    refine ⟨v, ?_, fun _ _ => rfl⟩
    rw [dualAccess, memWrite_admits (fits.1 rfl)]
    rfl
  | load =>
    refine ⟨x, ?_, fun d t => setR_eq d x t⟩
    rw [dualAccess, memRead_holds (fits.2 rfl)]
    rfl

/-- Both post-modifies of type 1: neither changes what the other needs. -/
theorem dual_modifyIndex_ok {ia ic : Fin 8} {m1 m2 : Word} {s : State} (ok1 : IndexOk s (dagIndex .dm ia) m1)
    (ok2 : IndexOk s (dagIndex .pm ic) m2) (f : State → Result) :
    (andThen (modifyIndex (dagIndex .dm ia) m1 s) fun s1 => andThen (modifyIndex (dagIndex .pm ic) m2 s1) f) =
      f (indexUpdated (dagIndex .pm ic) m2 (indexUpdated (dagIndex .dm ia) m1 s)) := by
  rw [modifyIndex_ok ok1, andThen_next,
    modifyIndex_ok (indexOk_indexUpdated_other (dagIndex_pm_ne_dm ic ia) m1 ok2), andThen_next]

/-- What well-formedness asks of the loads of type 1 (the spec's D46, 40_dag_addressing R123). -/
theorem dualMove_loads_of_wellFormed {c : Compute} {dmDir pmDir : Dir} {ia mb ic md : Fin 8} {d1 d2 : DReg}
    (h : (Instr.computeDualMove c dmDir ia mb d1 pmDir ic md d2).WellFormed) :
    (dmDir = .load → pmDir = .load → d1 ≠ d2) ∧ (dmDir = .load → d1 ∉ c.dests) ∧ (pmDir = .load → d2 ∉ c.dests) := by
  simp only [Instr.WellFormed, Instr.illFormed, firstOf_cons_eq_none, broken_eq_none] at h
  obtain ⟨-, both, dm, pm, -⟩ := h
  exact ⟨by simpa using both, by simpa using dm, by simpa using pm⟩

end Sys2Proof.Machine

namespace Sys2Proof.Safety
open Sys2Proof.Machine

/-- Settles O5: the operation's writes are those of its result registers, MR, the flags and the latches, one after the other. -/
theorem ifComputeResult : Obligations.IfComputeResult := by
  intro cond slot c s0 s inp t
  refine ⟨fun ready => runPlain_whenCond ready (fun _ => rfl) ((SamePlace.refl s).applyCompute .compute c _), fun d => ?_,
    fun hc => ?_, fun hc => ?_⟩
  · cases c
    case multi => simp [Compute.dests, mem_dregAll]
    all_goals simp [Compute.dests]
  · subst hc
    rfl
  · have writes : t = computeWrites slot c inp s := by
      rw [show inp = s0.computeInput from (computeInput_eq s0).symm]
      exact applyCompute_eq_computeWrites hc slot _ s
    obtain ⟨mr, mrOther⟩ := computeWrites_mr slot c inp s
    rw [writes]
    exact ⟨dataRead_computeWrites slot c inp s, mr, rfl, rfl, computeWrites_regs_unselected slot c inp s, mrOther, rfl⟩

/-- Settles O6: a store through a DAG of what the register reads as; the refusals are constraints of both forms. -/
theorem storeUregResult : Obligations.StoreUregResult := by
  intro form cond c bus i m u s n mod a instr
  have template : instr.illFormed = firstOf [checkCond cond, checkCompute c, checkUreg u, checkDag bus u] := by
    cases form <;> rfl
  have exec_eq : exec instr s = runPlain .plain s (whenCond cond s
      (andThen (s.readUreg u) fun v => storeMove form bus n mod v .compute c s)) := by
    cases form <;> rfl
  refine ⟨fun ready ok => ?_, fun h => not_wellFormed template (by simp) (checkDag_ne_none h), ofDag_iff,
    fun h => not_wellFormed template (by simp) (checkUreg_ne_none h), readable_eq_false_iff⟩
  rw [exec_eq]
  refine runPlain_whenCond ready (fun holds => ?_)
    ((((SamePlace.refl s).formUpdated form n mod).wordStored a _).applyCompute .compute c _)
  obtain ⟨readable, index, admits⟩ := ok holds
  rw [readUreg_eq readable, andThen_next]
  exact storeMove_ok index admits

/-- Settles O7: a load through a DAG; the refusals are constraints of both forms. -/
theorem loadUregResult : Obligations.LoadUregResult := by
  intro form cond c bus i m u x s n mod instr
  have template : instr.illFormed =
      firstOf [checkCond cond, checkCompute c, checkUreg u, checkDag bus u, checkLoad c u] := by
    cases form <;> rfl
  have exec_eq : exec instr s = runPlain .plain s (whenCond cond s (loadMove form bus n mod u .compute c s)) := by
    cases form <;> rfl
  refine ⟨fun ready ok => ?_, fun h => not_wellFormed template (by simp) (checkDag_ne_none h), fun d hd hu => ?_⟩
  · rw [exec_eq]
    exact runPlain_loadMove ready ok
  · exact not_wellFormed template (check := checkLoad c u) (by simp) (hu ▸ checkLoad_ne_none hd)

/-- Settles O8: a store and a load through a DAG, in both forms; a data register takes any word. -/
theorem data6MoveResult : Obligations.Data6MoveResult := by
  intro form cond c bus i data6 d x s n mod a load
  have template : load.illFormed = firstOf [checkCond cond, checkCompute c, checkLoad c (.r d)] := by
    cases form <;> rfl
  refine ⟨fun ready ok => ?_, fun ready ok => ?_, fun hd => not_wellFormed template (by simp) (checkLoad_ne_none hd)⟩
  · rw [← getR_eq]
    cases form <;> exact runPlain_storeMove ready ok
  · have loads : truth s cond = true → FormOk form s n mod ∧ Holds s bus a x ∧ writable (.r d) x s = true :=
      fun holds => (ok holds).imp_right (⟨·, rfl⟩)
    cases form <;> exact runPlain_loadMove ready loads

/-- Settles O9: a move to itself is a move of a value that may be written and that changes nothing. -/
theorem moveUregResult : Obligations.MoveUregResult := by
  intro cond c u1 u2 s v
  refine ⟨exec_moveUreg, fun ready clear readable hm hb => ?_, fun d hd hu => ?_⟩
  · have same : uregWritten u1 (uregRead s u1) (applyCompute .compute .none s.computeInput s) = s :=
      uregWritten_self hm hb s
    rw [exec_moveUreg ready fun _ => ⟨readable, writable_self clear readable⟩, same, ite_self]
  · exact not_wellFormed (check := checkLoad c u1) rfl (by simp) (hu ▸ checkLoad_ne_none hd)

/-- Settles O10: a store and a load through a DAG in the post-modify form, beside a shift. -/
theorem shiftMoveResult : Obligations.ShiftMoveResult := by
  intro cond sh bus i m d x s n mod a
  refine ⟨fun ready ok => ?_, fun ready ok => ?_, fun hd => not_wellFormed rfl (by simp) (checkLoad_ne_none hd)⟩
  · rw [← getR_eq]
    refine runPlain_storeMove (form := .post) ready fun holds => ?_
    obtain ⟨index, admits⟩ := ok holds
    exact ⟨fun _ => index, admits⟩
  · refine runPlain_loadMove (form := .post) (u := .r d) ready fun holds => ?_
    obtain ⟨index, word⟩ := ok holds
    exact ⟨fun _ => index, word, rfl⟩

/-- Settles O11: a post-modify with no access. -/
theorem modifyResult : Obligations.ModifyResult := by
  intro cond c i m data s ready
  refine ⟨fun ok => ?_, fun ok => ?_⟩
  · refine runPlain_whenCond ready (fun holds => ?_)
      (((SamePlace.refl s).indexUpdated i (s.getM m)).applyCompute .compute c _)
    rw [modifyIndex_ok (ok holds), andThen_next]
  · show runPlain .plain s (modifyIndex i data s) = _
    rw [modifyIndex_ok ok]
    exact runPlain_ready ready ((SamePlace.refl s).indexUpdated i data)

/-- Settles O12: the two updates do not meet, as the DAGs have no number in common, and each access fits after them. -/
theorem dualMoveResult : Obligations.DualMoveResult := by
  intro c dmDir ia mb d1 pmDir ic md d2 x1 x2 s n1 n2 m1 m2 a1 a2 instr
  refine ⟨fun ready ok1 ok2 apart fits1 fits2 => ?_, fun ready ok1 ok2 same store => ?_, fun twice => ?_⟩
  · have conflictFree : ¬ dualConflict a1 a2 dmDir pmDir = true := fun conflict => by
      obtain ⟨same, store⟩ := dualConflict_iff.1 conflict
      obtain ⟨rfl, rfl⟩ := apart same
      simp at store
    show runPlain .plain s _ = _
    rw [dual_modifyIndex_ok ok1 ok2, if_neg conflictFree]
    have updated2 := moveFits_indexUpdated (moveFits_indexUpdated fits2 n1 m1) n2 m2
    rw [← moveStored_indexUpdated, ← moveStored_indexUpdated] at updated2
    obtain ⟨y1, access1, result1⟩ :=
      dualAccess_ok (moveFits_indexUpdated (moveFits_indexUpdated fits1 n1 m1) n2 m2) (dataRead s d1)
    obtain ⟨y2, access2, result2⟩ := dualAccess_ok updated2 (dataRead s d2)
    have stored := ((((SamePlace.refl s).indexUpdated n1 m1).indexUpdated n2 m2).moveStored dmDir a1 (dataRead s d1)).moveStored
      pmDir a2 (dataRead s d2)
    rw [getR_eq, getR_eq, access1, andThen_next]
    dsimp only
    rw [access2, andThen_next]
    dsimp only
    rw [result1, result2]
    exact runPlain_ready ready (((stored.applyCompute .compute c _).moveLoaded dmDir d1 x1).moveLoaded pmDir d2 x2)
  · show runPlain .plain s _ = _
    rw [dual_modifyIndex_ok ok1 ok2, if_pos (dualConflict_iff.2 ⟨same, store⟩)]
    exact runPlain_fault ready.1 _
  · intro wf
    obtain ⟨both, dm, pm⟩ := dualMove_loads_of_wellFormed wf
    obtain ⟨hdm, hpm, same⟩ | ⟨hdm, dest⟩ | ⟨hpm, dest⟩ := twice
    · exact both hdm hpm same
    · exact dm hdm dest
    · exact pm hpm dest

end Sys2Proof.Safety
end

section
/-! CERTIFICATE. Types 14 to 17 and 19a: an unconditional instruction is its effects, then its end (`runPlain_effects`). A move
through a DAG is `storeMove` or `loadMove` with no operation; a direct move is one memory access. -/

namespace Sys2Proof.Machine
open Sys2Proof.Safety

/-- A register whose value may be written is written as its rule says (10_state R40). -/
theorem writeUreg_writable {u : UReg} {v : Word} {s : State} (write : writable u v s = true) :
    writeUreg u v s = .next (uregWritten u v s) :=
  writeUreg_ok write rfl rfl rfl (by simp)

/-- An instruction that first reads a register goes on with what the register reads as. -/
theorem runPlain_readUreg {u : UReg} (readable : u.readable = true) (k : FlowKind) (s : State) (f : Word → Result) :
    runPlain k s (andThen (s.readUreg u) f) = runPlain k s (f (uregRead s u)) := by
  rw [readUreg_eq readable, andThen_next]

/-- An unconditional instruction whose effects succeed and keep its place is its effects, then its end. -/
theorem runPlain_effects {s t : State} {x : Result} (ready : Ready s) (effects : x = .next t) (place : SamePlace s t) :
    runPlain .plain s x = .next (advance t) := by
  rw [effects]
  exact runPlain_ready ready place

end Sys2Proof.Machine

namespace Sys2Proof.Safety
open Sys2Proof.Machine

/-- Settles O13: a direct move is one access, the others are moves through a DAG with no operation; the refusals are
constraints of types 15a and 15b. -/
theorem immediateMoveResult : Obligations.ImmediateMoveResult := by
  intro bus i m addr data u v s n mod pre
  have here := SamePlace.refl s
  refine ⟨fun ready readable admits => ?storeDirect, fun ready readable noCode unmapped => ?storeUnmapped,
    fun ready word write => ?loadDirect, fun ready readable admits => ?storePre, fun ready word write => ?loadPre,
    fun ofDag => ?refused, fun ready index admits => ?storePost⟩
  case storeDirect =>
    refine (runPlain_readUreg readable .plain s _).trans ?_
    exact runPlain_effects ready (memWrite_admits admits _) (here.wordStored addr _)
  case storeUnmapped =>
    obtain ⟨stops, -⟩ := access_unmapped noCode unmapped (uregRead s u)
    refine (runPlain_readUreg readable .plain s _).trans ?_
    rw [stops]
    exact runPlain_fault ready.1 .writeUnmapped
  case loadDirect =>
    refine runPlain_effects ready ?_ (here.uregWritten u v)
    rw [memRead_holds word, andThen_next]
    exact writeUreg_writable write
  case storePre =>
    refine (runPlain_readUreg readable .plain s _).trans ?_
    exact runPlain_effects ready (storeMove_ok (form := .pre) nofun admits) (here.wordStored pre _)
  case loadPre =>
    exact runPlain_effects ready (loadMove_ok (form := .pre) nofun word write) (here.uregWritten u v)
  case refused =>
    exact ⟨not_wellFormed rfl (by simp) (checkDag_ne_none ofDag), not_wellFormed rfl (by simp) (checkDag_ne_none ofDag)⟩
  case storePost =>
    exact runPlain_effects ready (storeMove_ok (form := .post) (fun _ => index) admits)
      ((here.indexUpdated n mod).wordStored (s.postAddr n) data)

/-- Settles O14: no register that may be written is part of the instruction's place. -/
theorem loadImmediateResult : Obligations.LoadImmediateResult := fun u data s ready write =>
  exec_loadImm ready (writeUreg_writable write) ((SamePlace.refl s).uregWritten u data)

/-- Settles O16: BITREV is a write of I[n] like any other, and keeps the instruction's place. -/
theorem bitrevResult : Obligations.BitrevResult := by
  refine ⟨fun i data s ready => ?_, fun v k hk => getLsbD_bitrev32 v hk, fun _ => BitVec.reverse_reverse_eq⟩
  exact runPlain_effects ready (congrArg _ (setI_eq i _ s)) ((SamePlace.refl s).uregWritten (.i i) _)

end Sys2Proof.Safety
end

section
/-! SUPPORT. How a branch and a `DO` begin and end: outside delay slots and loop tails their effects run, and the end is a
departure or the next address; what the parts of a branch answer where they succeed. -/

namespace Sys2Proof.Machine
open Sys2Proof.Safety

/-! ### Where a branch stands -/

/-- Outside delay slots and loop tails an instruction of any kind is its effects, then its end. -/
theorem run_of_readyToBranch {s : State} (ready : ReadyToBranch s) (k : FlowKind)
    (effects : Host.Outcome (State × Yield) Fault Refusal) : run k s effects = andThen effects fun p => retire p.2 p.1 := by
  obtain ⟨sisd, noSlot, noTail⟩ := ready
  exact run_eq sisd (fun d hd => nomatch noSlot.symm.trans hd) (fun ht => absurd (inLoopTail_iff.1 ht) noTail) effects

theorem runPlain_of_readyToBranch {s : State} (ready : ReadyToBranch s) (k : FlowKind) (effects : Result) :
    runPlain k s effects = andThen effects (retire .noBranch) := by
  unfold runPlain
  rw [run_of_readyToBranch ready, andThen_assoc]
  rfl

/-- A `JUMP` that may stand there is its effects, then its end (43_program_flow R220). -/
theorem run_of_mayJump {la db : Bool} {s : State} (may : MayJump la db s)
    (effects : Host.Outcome (State × Yield) Fault Refusal) :
    run (.jump la db) s effects = andThen effects fun p => retire p.2 p.1 := by
  obtain ⟨sisd, noSlot, tail⟩ := may
  refine run_eq sisd (fun d hd => nomatch noSlot.symm.trans hd) (fun ht => ?_) effects
  obtain ⟨rfl, rfl⟩ := tail (inLoopTail_iff.1 ht)
  rfl

theorem not_endsInnermost_of_readyToBranch {s : State} (ready : ReadyToBranch s) : ¬ EndsInnermost s := by
  obtain ⟨-, -, noTail⟩ := ready
  exact fun he => noTail (inTail_of_endsLoop (endsLoop_of_atLoopEnd (atLoopEnd_iff_endsInnermost.2 he)))

/-! ### How it ends -/

/-- A taken branch departs (43_program_flow R201, R202). -/
theorem retire_branchTo {s : State} (noSlot : s.dly = none) (db byRti : Bool) (t : PAddr) :
    retire (branchTo db byRti t) s = .next (depart db byRti t s) := by
  unfold retire
  cases db <;> simp [noSlot, branchTo, depart]

/-- Away from delay slots and the innermost loop's end an instruction that does not branch goes on at the next address. -/
theorem retire_noBranch_next {s : State} (noSlot : s.dly = none) (noEnd : ¬ EndsInnermost s) :
    retire .noBranch s = .next { s with pc := s.pc + 1 } := by
  have noLoopEnd : ¬ s.atLoopEnd = true := mt atLoopEnd_iff_endsInnermost.1 noEnd
  unfold retire
  simp [noSlot, noLoopEnd]

/-- What does not branch ends at the next address where a branch may stand, its place kept. -/
theorem retire_noBranch_of_readyToBranch {s t : State} (ready : ReadyToBranch s) (place : SamePlace s t) :
    retire .noBranch t = .next { t with pc := s.pc + 1 } := by
  obtain ⟨-, noSlot, -⟩ := id ready
  rw [← place.pc]
  refine retire_noBranch_next (place.dly.trans noSlot) ?_
  rw [EndsInnermost, place.loopStack, place.pc]
  exact not_endsInnermost_of_readyToBranch ready

/-! ### The parts of a branch -/

/-- A conditional branch whose taken part succeeds where its condition holds: that part and the operation of a plain clause, or
the operation of an `ELSE` (43_program_flow section 3). -/
theorem branchEffects_ok {cond : CondCode} {clause : Clause} {s u : State} {y : Yield}
    {taken : Host.Outcome (State × Yield) Fault Refusal} (ok : truth s cond = true → taken = .next (u, y)) :
    branchEffects cond clause s taken =
      .next (if truth s cond then (applyCompute .compute (clausePart clause true) s.computeInput u, y)
        else (applyCompute .compute (clausePart clause false) s.computeInput s, .noBranch)) := by
  unfold branchEffects
  rw [← truth_eq, clausePart_eq, clausePart_eq]
  cases holds : truth s cond with
  | true => rw [ok holds]; rfl
  | false => rfl

theorem popPc_ok {tag : PcTag} {s : State} {t : PAddr} (top : s.pcStack.head? = some ⟨t, tag⟩) :
    popPc tag s = .next (t, { s with pcStack := s.pcStack.tail }) := by
  obtain ⟨rest, hp⟩ := List.head?_eq_some_iff.1 top
  exact popPc_eq_next.2 ⟨rest, hp, by rw [hp]; rfl⟩

/-- The modifier `(LA)` (43_program_flow R203). -/
theorem abortLoop_ok {s : State} (loop : s.loopStack ≠ []) (top : s.pcStack.head?.map (·.tag) = some .loop) :
    abortLoop s = .next { s with loopStack := s.loopStack.tail, pcStack := s.pcStack.tail } := by
  obtain ⟨⟨t, tag⟩, head, rfl⟩ := Option.map_eq_some_iff.1 top
  obtain ⟨e, loops, hl⟩ := List.exists_cons_of_ne_nil loop
  unfold abortLoop
  simp only [hl]
  rw [popPc_ok (s := { s with loopStack := loops }) head]
  rfl

/-- The modifier `(CI)` (43_program_flow R203, 60_exceptions R271). -/
theorem clearInterrupt_ok {s : State} (service : s.isrv ≠ []) :
    clearInterrupt s = .next { s with isrv := s.isrv.tail, pcStack := retagInterrupt s.pcStack } := by
  obtain ⟨n, isrv, hi⟩ := List.exists_cons_of_ne_nil service
  unfold clearInterrupt
  simp only [hi]
  rfl

/-- The modifiers of a taken jump (43_program_flow R203). -/
theorem jumpTaken_ok {la ci : Bool} {s : State} (ok : ModifiersOk la ci s) (t : PAddr) (db : Bool) :
    jumpTaken t db la ci s = .next (modifiersDone la ci s, branchTo db false t) := by
  obtain ⟨abort, clear⟩ := ok
  unfold jumpTaken modifiersDone
  cases la with
  | true =>
    obtain ⟨rfl, loop, top⟩ := abort rfl
    rw [if_pos rfl, abortLoop_ok loop top]
    rfl
  | false =>
    cases ci with
    | true => rw [if_neg nofun, andThen_next, if_pos rfl, clearInterrupt_ok (clear rfl)]; rfl
    | false => rfl

theorem modifiersDone_dly (la ci : Bool) (s : State) : (modifiersDone la ci s).dly = s.dly := by
  cases la <;> cases ci <;> rfl

/-- The return address of a taken call on the PC stack (43_program_flow R206, R224). -/
theorem callTaken_ok {s : State} (room : s.pcStack.length < 30) (t : PAddr) (db : Bool) :
    callTaken t db s = .next (pcPushed (returnAddress db s) .call s, branchTo db false t) := by
  unfold callTaken
  rw [pushPc_eq, if_neg (Nat.not_le.2 room)]
  rfl

/-- The return address of a taken `RTS` (43_program_flow R214). -/
theorem rtsTaken_ok {s : State} {t : PAddr} (top : s.pcStack.head? = some ⟨t, .call⟩) (db : Bool) :
    rtsTaken db false s = .next ({ s with pcStack := s.pcStack.tail }, branchTo db false t) := by
  unfold rtsTaken
  rw [popPc_ok top]
  rfl

/-- The target of an indirect branch (43_program_flow R208, 40_dag_addressing R119). -/
theorem indirectTarget_ok {s : State} {md ic : Fin 8} (ok : TargetOk s md ic) :
    s.indirectTarget md ic = .next ((s.getI (dagIndex .pm ic) + s.getM (dagIndex .pm md)).setWidth 24) := by
  obtain ⟨plain, range⟩ := ok
  unfold State.indirectTarget
  have notReversed : ¬ (ic.val = 0 ∧ s.br8 = true) := fun ⟨hi, hb⟩ => by
    rw [State.br8, plain hi] at hb
    cases hb
  rw [if_neg notReversed]
  exact if_pos range

theorem relTarget_full (pc : PAddr) (off : BitVec 24) : relTarget pc off = pc + off := by
  rw [relTarget, BitVec.signExtend_eq]

/-! ### The whole branch -/

/-- A `JUMP` beside a clause, its target known (43_program_flow R203, R204). -/
theorem run_jump {cond : CondCode} {db la ci : Bool} {clause : Clause} {s : State} (ready : ReadyToJump la db s)
    (ok : truth s cond = true → ModifiersOk la ci s) (t : PAddr) :
    run (.jump la db) s (branchEffects cond clause s (jumpTaken t db la ci s)) =
      .next (if truth s cond then
          depart db false t (applyCompute .compute (clausePart clause true) s.computeInput (modifiersDone la ci s))
        else advance (applyCompute .compute (clausePart clause false) s.computeInput s)) := by
  obtain ⟨may, canEnd⟩ := ready
  obtain ⟨-, noSlot, -⟩ := id may
  rw [run_of_mayJump may, branchEffects_ok fun holds => jumpTaken_ok (ok holds) t db, andThen_next]
  cases truth s cond with
  | true => exact retire_branchTo ((applyCompute_dly ..).trans ((modifiersDone_dly ..).trans noSlot)) db false t
  | false => exact retire_noBranch (((SamePlace.refl s).applyCompute .compute _ _).canEnd canEnd)

/-- A `CALL` or `RTS` beside a clause, whose taken part leaves the delayed-branch state (43_program_flow R206, R214). -/
theorem run_flow {cond : CondCode} {db : Bool} {clause : Clause} {s u : State} {t : PAddr}
    {taken : Host.Outcome (State × Yield) Fault Refusal} (ready : ReadyToBranch s)
    (ok : truth s cond = true → taken = .next (u, branchTo db false t)) (dly : u.dly = s.dly) :
    run .flow s (branchEffects cond clause s taken) =
      .next (if truth s cond then
          depart db false t (applyCompute .compute (clausePart clause true) s.computeInput u)
        else { applyCompute .compute (clausePart clause false) s.computeInput s with pc := s.pc + 1 }) := by
  obtain ⟨-, noSlot, -⟩ := id ready
  rw [run_of_readyToBranch ready, branchEffects_ok ok, andThen_next]
  cases truth s cond with
  | true => exact retire_branchTo ((applyCompute_dly ..).trans (dly.trans noSlot)) db false t
  | false => exact retire_noBranch_of_readyToBranch ready ((SamePlace.refl s).applyCompute .compute _ _)

/-- A `CALL` beside a clause, its target known (43_program_flow R206, R224). -/
theorem run_call {cond : CondCode} {db : Bool} {clause : Clause} {s : State} (ready : ReadyToBranch s)
    (room : truth s cond = true → s.pcStack.length < 30) (t : PAddr) :
    run .flow s (branchEffects cond clause s (callTaken t db s)) =
      .next (if truth s cond then
          depart db false t (applyCompute .compute (clausePart clause true) s.computeInput
            (pcPushed (returnAddress db s) .call s))
        else { applyCompute .compute (clausePart clause false) s.computeInput s with pc := s.pc + 1 }) :=
  run_flow ready (fun holds => callTaken_ok (room holds) t db) rfl

end Sys2Proof.Machine
end

section
/-! CERTIFICATE. JUMP, CALL, RTS, NOP and IDLE: each form is `run_jump`, `run_call` or `run_flow` at its target. -/

namespace Sys2Proof.Machine
open Sys2Proof.Safety

/-- `(CI)` passes over the entries above the topmost one of an interrupt (43_program_flow R203). -/
theorem retagInterrupt_append {before : List PcEntry} (above : ∀ e ∈ before, e.tag ≠ .interrupt) (l : List PcEntry) :
    retagInterrupt (before ++ l) = before ++ retagInterrupt l := by
  induction before with
  | nil => rfl
  | cons e before ih =>
    obtain ⟨he, above⟩ := List.forall_mem_cons.1 above
    rw [List.cons_append, retagInterrupt, if_neg he, ih above, List.cons_append]

end Sys2Proof.Machine

namespace Sys2Proof.Safety
open Sys2Proof.Machine

/-- Settles O4: neither has an effect on its place. -/
theorem nopAndIdleResult : Obligations.NopAndIdleResult := by
  refine fun s => ⟨fun ready => runPlain_ready ready (SamePlace.refl s), fun ready => ?_⟩
  obtain ⟨⟨sisd, canEnd⟩, noSlot⟩ := ready
  show runPlain .notInSlot s (.next { s with idle := true }) = _
  unfold runPlain
  rw [run_eq sisd (fun d hd => nomatch noSlot.symm.trans hd) fun _ => rfl]
  exact retire_noBranch canEnd

/-- Settles O17: a direct jump is a jump beside no clause; the re-tagging is an induction over the entries above. -/
theorem jumpResult : Obligations.JumpResult := by
  refine fun cond addr off db la ci s => ⟨fun ready ok => ⟨run_jump ready ok addr, ?_⟩, fun before t below above => ?_⟩
  · rw [← relTarget_full]
    exact run_jump ready ok (relTarget s.pc off)
  · refine ⟨?_, retagInterrupt_append above (⟨t, .interrupt⟩ :: below)⟩
    simpa [retagInterrupt] using retagInterrupt_append above []

/-- Settles O18: a direct call is a call beside no clause. -/
theorem callResult : Obligations.CallResult := by
  refine fun cond addr off db s ready room => ⟨run_call ready room addr, ?_⟩
  rw [← relTarget_full]
  exact run_call ready room (relTarget s.pc off)

/-- Settles O19: an indirect jump first computes its target. -/
theorem jumpClauseResult : Obligations.JumpClauseResult := by
  intro cond md ic off db la ci clause s a compute ready ok
  refine ⟨fun target => ?_, run_jump ready ok _⟩
  show run (.jump la db) s (andThen (s.indirectTarget md ic) _) = _
  rw [indirectTarget_ok target]
  exact run_jump ready ok (a.setWidth 24)

/-- Settles O20: an indirect call first computes its target. -/
theorem callClauseResult : Obligations.CallClauseResult := by
  intro cond md ic off db clause s a compute ready room
  refine ⟨fun target => ?_, run_call ready room _⟩
  show run .flow s (andThen (s.indirectTarget md ic) _) = _
  rw [indirectTarget_ok target]
  exact run_call ready room (a.setWidth 24)

/-- Settles O22. -/
theorem rtsResult : Obligations.RtsResult := by
  intro cond db lr clause t s compute ready ok
  refine run_flow ready (fun holds => ?_) rfl
  obtain ⟨rfl, top⟩ := ok holds
  exact rtsTaken_ok top db

end Sys2Proof.Safety
end

section
/-! CERTIFICATE. RTI, which pops the interrupt in service, its return address and the status of six interrupts; and the jumps with an
`ELSE` move. -/

namespace Sys2Proof.Machine
open Sys2Proof.Safety Sys2Proof.Laws

/-! ### A return from an interrupt -/

section
variable {s : State} {e : StatusEntry} (top : s.statusStack.head? = some e)
include top

/-- A status-stack pop is the write of MODE1 with the saved value (44_system_register R241). -/
theorem popStatus_of_top : popStatus s = loadMode1 e.mode1
    { s with statusStack := s.statusStack.tail, astat := restoredAstat e.astat s.astat } := by
  obtain ⟨rest, hs⟩ := List.head?_eq_some_iff.1 top
  unfold popStatus
  simp only [hs]
  rfl

theorem popStatus_ok (clear : e.mode1 &&& 0xFE180300 = 0) : popStatus s = .next (statusPopped e s) :=
  (popStatus_of_top top).trans (if_pos clear)

theorem popStatus_reserved (set : e.mode1 &&& 0xFE180300 ≠ 0) : popStatus s = .refused .reservedBit :=
  (popStatus_of_top top).trans (if_neg set)

end

theorem popStatus_empty {s : State} (empty : s.statusStack = []) : popStatus s = .fault .statusStackUnderflow := by
  unfold popStatus
  simp only [empty]

theorem mem_statusInterrupts (n : Interrupt) : n ∈ statusInterrupts ↔ n.savesStatus = true := by
  cases n <;> decide

/-- `ReturnFromInterrupt()` (60_exceptions R270) of an interrupt in service whose PC-stack entry is on top. -/
theorem returnFromInterrupt_of_top {s : State} {n : Interrupt} {t : PAddr} (service : s.isrv.head? = some n)
    (top : s.pcStack.head? = some ⟨t, .interrupt⟩) :
    returnFromInterrupt s =
      andThen (if n ∈ statusInterrupts then popStatus { s with pcStack := s.pcStack.tail, isrv := s.isrv.tail }
        else .next { s with pcStack := s.pcStack.tail, isrv := s.isrv.tail }) fun u => .next (t, u) := by
  obtain ⟨isrv, hi⟩ := List.head?_eq_some_iff.1 service
  unfold returnFromInterrupt
  simp only [hi, mem_statusInterrupts]
  rw [popPc_ok top]
  rfl

theorem returnFromInterrupt_ok {s : State} {n : Interrupt} {t : PAddr} (ok : CanReturn s n t) :
    returnFromInterrupt s = .next (t, returned n s) := by
  obtain ⟨service, top, status⟩ := ok
  rw [returnFromInterrupt_of_top service top]
  unfold returned
  by_cases saves : n ∈ statusInterrupts
  · obtain ⟨e, he, clear⟩ := status saves
    obtain ⟨rest, hs⟩ := List.head?_eq_some_iff.1 he
    rw [if_pos saves, popStatus_ok (s := { s with pcStack := s.pcStack.tail, isrv := s.isrv.tail }) he clear]
    simp only [hs, if_pos saves, andThen_next]
  · simp only [if_neg saves, andThen_next]
    cases s.statusStack <;> rfl

theorem returned_dly (n : Interrupt) (s : State) : (returned n s).dly = s.dly := by
  unfold returned
  dsimp only
  repeat' split
  all_goals rfl

/-- `RTI` where it may stand: the operation of its clause, then the return if it is taken (43_program_flow R215). -/
theorem exec_rti {s : State} (ready : ReadyToBranch s) (cond : CondCode) (db : Bool) (clause : Clause) :
    exec (.rti cond db clause) s =
      if truth s cond then
        andThen (returnFromInterrupt (applyCompute .compute (clausePart clause (truth s cond)) s.computeInput s))
          fun p => retire (branchTo db true p.1) p.2
      else .next { applyCompute .compute (clausePart clause (truth s cond)) s.computeInput s with pc := s.pc + 1 } := by
  show run .flow s _ = _
  rw [run_of_readyToBranch ready, clausePart_eq, truth_eq]
  dsimp only
  split
  · rw [andThen_assoc]
    rfl
  · exact retire_noBranch_of_readyToBranch ready ((SamePlace.refl s).applyCompute .compute _ _)

/-! ### A jump or else a move -/

/-- The move and the operation of a jump that is not taken (43_program_flow R212, R213). -/
theorem dmMove_ok {dir : Dir} {ia mb : Fin 8} {d : DReg} {c : Compute} {x : Word} {s : State}
    (index : IndexOk s (dagIndex .dm ia) (s.getM (dagIndex .dm mb)))
    (fits : MoveFits dir s .dm (s.postAddr (dagIndex .dm ia)) x) :
    dmMove dir ia mb d c s =
      .next (moveLoaded dir d x (applyCompute .compute c s.computeInput
        (moveStored dir (s.postAddr (dagIndex .dm ia)) (dataRead s d)
          (indexUpdated (dagIndex .dm ia) (s.getM (dagIndex .dm mb)) s)))) := by
  obtain ⟨admits, holds⟩ := fits
  cases dir with
  | store =>
    rw [← getR_eq]
    exact storeMove_ok (form := .post) (fun _ => index) (admits rfl)
  | load => exact loadMove_ok (form := .post) (u := .r d) (fun _ => index) (holds rfl) rfl

/-- A jump with an `ELSE` move, its target known (43_program_flow R212, R213). -/
theorem run_jumpElseMove {cond : CondCode} {c : Compute} {dir : Dir} {ia mb : Fin 8} {d : DReg} {s moved : State}
    (ready : ReadyToBranch s) (move : truth s cond = false → dmMove dir ia mb d c s = .next moved)
    (place : SamePlace s moved) (t : PAddr) :
    run (.jump false false) s (jumpElseMove cond t c dir ia mb d s) =
      .next (if truth s cond then { s with pc := t } else { moved with pc := s.pc + 1 }) := by
  obtain ⟨-, noSlot, -⟩ := id ready
  unfold jumpElseMove
  rw [run_of_readyToBranch ready, ← truth_eq]
  cases holds : truth s cond with
  | true => exact retire_branchTo noSlot false false t
  | false =>
    rw [move holds]
    exact retire_noBranch_of_readyToBranch ready place

end Sys2Proof.Machine

namespace Sys2Proof.Safety
open Sys2Proof.Machine

/-- Settles O23: the operation leaves what the return pops. -/
theorem rtiResult : Obligations.RtiResult := by
  intro cond db clause n t s s1 ready ok
  obtain ⟨-, noSlot, -⟩ := id ready
  rw [exec_rti ready]
  by_cases holds : truth s cond = true
  · have pops : CanReturn s1 n t := by simpa [s1, CanReturn] using ok holds
    have slot : (returned n s1).dly = none := (returned_dly n s1).trans ((applyCompute_dly ..).trans noSlot)
    rw [if_pos holds, if_pos holds, returnFromInterrupt_ok pops]
    exact retire_branchTo slot db true t
  · rw [if_neg holds, if_neg holds]

/-- Settles O21: the jump has no effect beside its target; the refusal is a constraint of both forms. -/
theorem jumpElseMoveResult : Obligations.JumpElseMoveResult := by
  intro cond md ic off c dir ia mb d x s t n mod a moved
  have place : SamePlace s moved :=
    ((((SamePlace.refl s).indexUpdated n mod).moveStored dir a _).applyCompute .compute c _).moveLoaded dir d x
  refine ⟨fun ready ok => ?_, fun load dest => ?_⟩
  · have move : truth s cond = false → dmMove dir ia mb d c s = .next moved := fun holds => by
      obtain ⟨index, fits⟩ := ok holds
      exact dmMove_ok index fits
    refine ⟨fun target => ?_, run_jumpElseMove ready move place _⟩
    show run _ s (andThen (s.indirectTarget md ic) _) = _
    rw [indirectTarget_ok target]
    exact run_jumpElseMove ready move place (t.setWidth 24)
  · have twice : broken (dir == .load && c.dests.contains d) .twoWrites ≠ none := by simpa [load] using dest
    exact ⟨not_wellFormed rfl (by simp) twice, not_wellFormed rfl (by simp) twice⟩

end Sys2Proof.Safety
end

section
/-! CERTIFICATE. Loops: what the three `DO` forms answer, each check of R216 in its order; and how many times the body of a loop
runs, by induction over the ends of its passes. -/

namespace Sys2Proof.Machine
open Sys2Proof.Safety

/-! ### The start of a loop -/

section
variable {e : PAddr} {s : State} (term : CondCode) (n : Word)

theorem startLoop_endBeforeStart (outside : ¬ (s.pc + 1).toNat ≤ e.toNat) :
    startLoop e term n s = .fault .loopEndBeforeStart := by
  unfold startLoop
  exact if_pos (Nat.lt_of_not_le outside)

variable (inBody : (s.pc + 1).toNat ≤ e.toNat)
include inBody

theorem startLoop_nesting (crosses : ¬ ∀ outer ∈ s.loopStack.head?, e.toNat < outer.endAddr.toNat) :
    startLoop e term n s = .fault .loopNesting := by
  simp only [Classical.not_forall, Nat.not_lt] at crosses
  obtain ⟨outer, head, ends⟩ := crosses
  unfold startLoop
  rw [if_neg (Nat.not_lt.2 inBody), if_pos (by simp [Option.mem_def.1 head, ends])]

variable (nested : ∀ outer ∈ s.loopStack.head?, e.toNat < outer.endAddr.toNat)
include nested

/-- A loop that ends after its start and before the loop around it is pushed (43_program_flow R216). -/
theorem startLoop_nested :
    startLoop e term n s = andThen (pushPc (s.pc + 1) .loop s) fun s1 => pushLoop ⟨e, term, n⟩ s1 := by
  have fits : ¬ (s.loopStack.head?.map fun outer => decide (outer.endAddr.toNat ≤ e.toNat)) = some true := fun h => by
    obtain ⟨outer, head, ends⟩ := Option.map_eq_some_iff.1 h
    exact Nat.not_lt.2 (of_decide_eq_true ends) (nested outer head)
  unfold startLoop
  rw [if_neg (Nat.not_lt.2 inBody), if_neg fits]

theorem startLoop_pcStackOverflow (full : 30 ≤ s.pcStack.length) :
    startLoop e term n s = .fault .pcStackOverflow := by
  rw [startLoop_nested term n inBody nested, pushPc_eq, if_pos full, andThen_fault]

theorem startLoop_loopStackOverflow (room : s.pcStack.length < 30) (full : 6 ≤ s.loopStack.length) :
    startLoop e term n s = .fault .loopStackOverflow := by
  rw [startLoop_nested term n inBody nested, pushPc_eq, if_neg (Nat.not_le.2 room), andThen_next]
  exact if_pos full

theorem startLoop_ok (room : s.pcStack.length < 30) (loops : s.loopStack.length < 6) :
    startLoop e term n s = .next (loopPushed e term n s) := by
  rw [startLoop_nested term n inBody nested, pushPc_eq, if_neg (Nat.not_le.2 room), andThen_next]
  exact pushLoop_eq_next.2 ⟨loops, rfl⟩

end

theorem countedLoop_zero (e : PAddr) (s : State) : countedLoop 0 e s = .fault .loopCountZero := rfl

theorem countedLoop_of_ne_zero {n : Word} (hn : n ≠ 0) (e : PAddr) (s : State) :
    countedLoop n e s = andThen (startLoop e .lce n s) fun s1 => .next { s1 with lcntr := n } := if_neg hn

/-! ### The `DO` forms -/

theorem exec_doCountImm (count : BitVec 16) (target : Target) (s : State) :
    exec (.doCountImm count target) s = runPlain .flow s (countedLoop (count.setWidth 32) (loopEndOf s target) s) := by
  rw [← loopTarget_eq]
  rfl

theorem exec_doCountUreg {u : UReg} (readable : u.readable = true) (target : Target) (s : State) :
    exec (.doCountUreg u target) s = runPlain .flow s (countedLoop (uregRead s u) (loopEndOf s target) s) := by
  rw [← loopTarget_eq]
  exact runPlain_readUreg readable .flow s _

theorem exec_doUntil (target : Target) (term : CondCode) (s : State) :
    exec (.doUntil target term) s = runPlain .flow s (startLoop (loopEndOf s target) term 0 s) := by
  rw [← loopTarget_eq]
  rfl

theorem setWidth_ne_zero {count : BitVec 16} (h : count ≠ 0) : count.setWidth 32 ≠ 0 := fun hz => h <| by
  simpa using congrArg (BitVec.setWidth 16) hz

/-- What a `DO` needs, as the checks of `startLoop` ask it: the body starts at the next address. -/
theorem startLoop_of_fits {e : PAddr} {s : State} (fits : LoopFits s e) (term : CondCode) (n : Word) :
    startLoop e term n s = .next (loopPushed e term n s) := by
  obtain ⟨inBody, nested, room, loops⟩ := fits
  refine startLoop_ok term n ?_ nested room loops
  rw [BitVec.toNat_add]
  exact (Nat.mod_le _ _).trans inBody

/-- A `DO` whose stacks now hold its loop falls into the body: it stands before its own loop's end. -/
theorem runPlain_loopStarted {e : PAddr} {s t : State} {x : Result} (ready : ReadyToBranch s) (fits : LoopFits s e)
    (start : x = .next t) (pc : t.pc = s.pc) (dly : t.dly = s.dly) (innermost : t.loopStack.head?.map (·.endAddr) = some e) :
    runPlain .flow s x = .next { t with pc := s.pc + 1 } := by
  obtain ⟨-, noSlot, -⟩ := id ready
  obtain ⟨inBody, -⟩ := fits
  have noEnd : ¬ EndsInnermost t := fun he => by
    have same : e = t.pc := Option.some.inj (innermost.symm.trans he)
    rw [same, pc] at inBody
    omega
  rw [runPlain_of_readyToBranch ready, start, andThen_next, retire_noBranch_next (dly.trans noSlot) noEnd, pc]

/-- A `DO` stops where the start of its loop does. -/
theorem exec_do_fault {i : Instr} {s : State} {count : BitVec 16} {u : UReg} {target : Target} {term : CondCode}
    (ready : ReadyToBranch s)
    (form : i = .doUntil target term ∨ (i = .doCountImm count target ∧ count ≠ 0) ∨
      (i = .doCountUreg u target ∧ u.readable = true ∧ uregRead s u ≠ 0))
    {r : Fault} (stops : ∀ term n, startLoop (loopEndOf s target) term n s = .fault r) : exec i s = .fault r := by
  obtain rfl | ⟨rfl, hc⟩ | ⟨rfl, readable, hc⟩ := form
  · rw [exec_doUntil, stops, runPlain_of_readyToBranch ready, andThen_fault]
  · rw [exec_doCountImm, countedLoop_of_ne_zero (setWidth_ne_zero hc), stops, runPlain_of_readyToBranch ready]
    rfl
  · rw [exec_doCountUreg readable, countedLoop_of_ne_zero hc, stops, runPlain_of_readyToBranch ready]
    rfl

/-! ### The passes of a loop -/

/-- One repetition more, at the end. -/
theorem repeated_succ (f : State → Result) (k : Nat) (s : State) : repeated f (k + 1) s = andThen (repeated f k s) f := by
  induction k generalizing s with
  | zero =>
    show andThen (f s) Host.Outcome.next = f s
    cases f s <;> rfl
  | succ k ih =>
    show andThen (f s) (repeated f (k + 1)) = andThen (andThen (f s) (repeated f k)) f
    rw [andThen_assoc]
    exact congrArg (andThen (f s)) (funext ih)

section
variable {e : LoopEntry} {loops : List LoopEntry} {p : PcEntry} {below : List PcEntry} {s : State}
  (loop : s.loopStack = e :: loops) (stack : s.pcStack = p :: below) (tag : p.tag = .loop) (noSlot : s.dly = none)
include loop stack tag noSlot

/-- The last instruction of a loop's body ends a pass (43_program_flow R219). -/
theorem retire_at_loopEnd : retire .noBranch { s with pc := e.endAddr } = .next (passEnd { s with pc := e.endAddr }) := by
  have canEnd : CanEnd { s with pc := e.endAddr } := ⟨fun _ => noSlot, fun _ _ _ => by simp [stack, tag]⟩
  rw [retire_noBranch canEnd]
  unfold advance
  simp only [noSlot]
  rw [if_pos (by simp [loop])]

theorem pass_counted_again (counted : e.term = .lce) (more : e.count ≠ 1) :
    retire .noBranch { s with pc := e.endAddr } =
      .next { s with loopStack := { e with count := e.count - 1 } :: loops, pc := p.addr } := by
  rw [retire_at_loopEnd loop stack tag noSlot]
  unfold passEnd
  simp only [loop, stack, if_pos counted, if_neg more]

theorem pass_counted_last (counted : e.term = .lce) (last : e.count = 1) :
    retire .noBranch { s with pc := e.endAddr } =
      .next { s with loopStack := loops, pcStack := below, pc := e.endAddr + 1 } := by
  rw [retire_at_loopEnd loop stack tag noSlot]
  unfold passEnd
  simp only [loop, stack, if_pos counted, if_pos last]

theorem pass_uncounted (uncounted : e.term ≠ .lce) :
    retire .noBranch { s with pc := e.endAddr } =
      .next (if passIsLast s e.term then { s with loopStack := loops, pcStack := below, pc := e.endAddr + 1 }
        else { s with pc := p.addr }) := by
  rw [retire_at_loopEnd loop stack tag noSlot]
  unfold passEnd
  simp only [loop, stack, if_neg uncounted]
  rfl

/-- The ends of a counted loop's passes before the last: one pass less to go at each, back at the body's first instruction. -/
theorem repeated_pass (counted : e.term = .lce) (k : Nat) (more : k < e.count.toNat) :
    repeated (fun t => retire .noBranch { t with pc := e.endAddr }) k s =
      .next { s with
        loopStack := { e with count := e.count - BitVec.ofNat 32 k } :: loops
        pc := if k = 0 then s.pc else p.addr } := by
  induction k with
  | zero =>
    have here : e.count - BitVec.ofNat 32 0 = e.count := BitVec.sub_zero _
    rw [here, if_pos rfl, ← loop]
    rfl
  | succ k ih =>
    have notLast : e.count - BitVec.ofNat 32 k ≠ 1 := by bv_omega
    have less : e.count - BitVec.ofNat 32 k - 1 = e.count - BitVec.ofNat 32 (k + 1) := by bv_omega
    rw [repeated_succ, ih (by omega), andThen_next, if_neg k.succ_ne_zero, ← less]
    exact pass_counted_again
      (s := { s with loopStack := _, pc := _ }) rfl stack tag noSlot counted notLast

/-- The last end of a counted loop's body pops both stacks and falls through (43_program_flow R219). -/
theorem repeated_pass_all (counted : e.term = .lce) (nonzero : e.count ≠ 0) :
    repeated (fun t => retire .noBranch { t with pc := e.endAddr }) e.count.toNat s =
      .next { s with loopStack := loops, pcStack := below, pc := e.endAddr + 1 } := by
  have passes : e.count.toNat = (e.count.toNat - 1) + 1 := by bv_omega
  have last : e.count - BitVec.ofNat 32 (e.count.toNat - 1) = 1 := by bv_omega
  rw [passes, repeated_succ, repeated_pass loop stack tag noSlot counted _ (by omega), andThen_next]
  exact pass_counted_last (e := { e with count := e.count - BitVec.ofNat 32 (e.count.toNat - 1) })
    (s := { s with loopStack := _, pc := _ }) rfl stack tag noSlot counted last

end

end Sys2Proof.Machine

namespace Sys2Proof.Safety
open Sys2Proof.Machine

/-- Settles O26, by induction on the passes (`repeated_pass`). -/
theorem loopRunsItsCount : Obligations.LoopRunsItsCount := by
  intro e loops p below s loop stack tag noSlot pass
  refine ⟨fun counted nonzero => ⟨fun k pos more => ?_, repeated_pass_all loop stack tag noSlot counted nonzero⟩,
    fun forever => ?_, fun uncounted ends => ?_⟩
  · rw [repeated_pass loop stack tag noSlot counted k more, if_neg (Nat.pos_iff_ne_zero.1 pos)]
  · have never : passIsLast s e.term = false := by simp [passIsLast, forever]
    have again := pass_uncounted loop stack tag noSlot (by simp [forever])
    rwa [never] at again
  · have free : passIsLast s e.term = Config.loopTest e.term s.cycle := by simp [passIsLast, ends]
    have either := pass_uncounted loop stack tag noSlot uncounted
    rwa [free] at either

/-- Settles O25: the pushes succeed, and the `DO` stands before its loop's end. -/
theorem loopStartResult : Obligations.LoopStartResult := by
  intro count u term target s counted ready fits
  have start : ∀ k, k ≠ 0 → runPlain .flow s (countedLoop k (loopEndOf s target) s) = .next (counted k) := fun k hk => by
    refine runPlain_loopStarted ready fits (t := { loopPushed (loopEndOf s target) .lce k s with lcntr := k }) ?_ rfl rfl rfl
    rw [countedLoop_of_ne_zero hk, startLoop_of_fits fits, andThen_next]
  refine ⟨fun hc => ?_, fun readable hc => ?_, ?_⟩
  · exact (exec_doCountImm count target s).trans (start _ (setWidth_ne_zero hc))
  · exact (exec_doCountUreg readable target s).trans (start _ hc)
  · rw [exec_doUntil]
    exact runPlain_loopStarted ready fits (startLoop_of_fits fits term 0) rfl rfl rfl

/-- Settles O59: the checks of `startLoop`, one after the other. -/
theorem loopStops : Obligations.LoopStops := by
  intro s count u target term ready e inBody nested
  refine ⟨?_, fun readable zero => ?_, fun i form => ⟨fun outside => ?_, fun inside crosses => ?_,
    fun inside fits full => ?_, fun inside fits room full => ?_⟩⟩
  · rw [exec_doCountImm, runPlain_of_readyToBranch ready]
    rfl
  · rw [exec_doCountUreg readable, zero, runPlain_of_readyToBranch ready, countedLoop_zero, andThen_fault]
  · exact exec_do_fault ready form fun term n => startLoop_endBeforeStart term n outside
  · exact exec_do_fault ready form fun term n => startLoop_nesting term n inside crosses
  · exact exec_do_fault ready form fun term n => startLoop_pcStackOverflow term n inside fits full
  · exact exec_do_fault ready form fun term n => startLoop_loopStackOverflow term n inside fits room full

end Sys2Proof.Safety
end

section
/-! CERTIFICATE. Where taken branches stop: the pops and pushes that fail, each carried to every form of jump, call and return; and the
indirect targets that no branch reaches. -/

namespace Sys2Proof.Machine
open Sys2Proof.Safety

/-! ### The stops of the parts -/

theorem popPc_stackKind {tag : PcTag} {s : State} (other : ∀ e ∈ s.pcStack.head?, e.tag ≠ tag) :
    popPc tag s = .fault .stackKind := by
  unfold popPc
  cases hp : s.pcStack with
  | nil => rfl
  | cons e rest => exact if_neg (other e (by rw [hp]; rfl))

theorem abortLoop_empty {s : State} (empty : s.loopStack = []) : abortLoop s = .fault .loopStackEmpty := by
  unfold abortLoop
  simp only [empty]

theorem abortLoop_stackKind {s : State} (loop : s.loopStack ≠ []) (other : ∀ e ∈ s.pcStack.head?, e.tag ≠ .loop) :
    abortLoop s = .fault .stackKind := by
  obtain ⟨e, loops, hl⟩ := List.exists_cons_of_ne_nil loop
  unfold abortLoop
  simp only [hl]
  rw [popPc_stackKind (s := { s with loopStack := loops }) other, andThen_fault]

theorem clearInterrupt_none {s : State} (outside : s.isrv = []) : clearInterrupt s = .fault .rtiOutsideHandler := by
  unfold clearInterrupt
  simp only [outside]

theorem returnFromInterrupt_none {s : State} (outside : s.isrv = []) :
    returnFromInterrupt s = .fault .rtiOutsideHandler := by
  unfold returnFromInterrupt
  simp only [outside]

theorem returnFromInterrupt_stackKind {s : State} (service : s.isrv ≠ [])
    (other : ∀ e ∈ s.pcStack.head?, e.tag ≠ .interrupt) : returnFromInterrupt s = .fault .stackKind := by
  obtain ⟨n, isrv, hi⟩ := List.exists_cons_of_ne_nil service
  unfold returnFromInterrupt
  simp only [hi]
  rw [popPc_stackKind other, andThen_fault]

/-- The return of an interrupt that saved the status pops it (60_exceptions R264, R270). -/
theorem returnFromInterrupt_of_saved {s : State} (service : ∃ n ∈ s.isrv.head?, n ∈ statusInterrupts)
    (top : s.pcStack.head?.map (·.tag) = some .interrupt) :
    ∃ t, returnFromInterrupt s = andThen (popStatus { s with pcStack := s.pcStack.tail, isrv := s.isrv.tail })
      fun u => .next (t, u) := by
  obtain ⟨n, head, saves⟩ := service
  obtain ⟨⟨t, tag⟩, entry, rfl⟩ := Option.map_eq_some_iff.1 top
  exact ⟨t, by rw [returnFromInterrupt_of_top head entry, if_pos saves]⟩

theorem indirectTarget_reversed {s : State} {md ic : Fin 8} (i8 : ic.val = 0) (reversed : s.mode1Act.getLsbD 0 = true) :
    s.indirectTarget md ic = .refused .bitReversedBranch := by
  unfold State.indirectTarget
  exact if_pos ⟨i8, reversed⟩

theorem indirectTarget_range {s : State} {md ic : Fin 8} (plain : ic.val = 0 → s.mode1Act.getLsbD 0 = false)
    (high : 2 ^ 24 ≤ (s.getI (dagIndex .pm ic) + s.getM (dagIndex .pm md)).toNat) :
    s.indirectTarget md ic = .fault .branchTargetRange := by
  have notReversed : ¬ (ic.val = 0 ∧ s.br8 = true) := fun ⟨hi, hb⟩ => Bool.false_ne_true ((plain hi).symm.trans hb)
  unfold State.indirectTarget
  rw [if_neg notReversed]
  exact if_neg (Nat.not_lt.2 high)

/-! ### Every form of a branch -/

/-- Three forms of a branch, and a fourth where its indirect target is reached. -/
theorem forall_mem_forms {P : Instr → Prop} {direct relative short indirect : Instr} {reached : Prop} [Decidable reached]
    (hd : P direct) (hr : P relative) (hs : P short) (hi : reached → P indirect) :
    ∀ i ∈ [direct, relative, short] ++ (if reached then [indirect] else []), P i := by
  refine List.forall_mem_append.2 ⟨by simp [hd, hr, hs], ?_⟩
  split
  · exact List.forall_mem_singleton.2 (hi ‹_›)
  · exact List.forall_mem_nil P

theorem branchEffects_fault {cond : CondCode} {s : State} (holds : truth s cond = true) (clause : Clause) {r : Fault}
    {taken : Host.Outcome (State × Yield) Fault Refusal} (stops : taken = .fault r) :
    branchEffects cond clause s taken = .fault r := by
  unfold branchEffects
  rw [if_pos (by rw [← truth_eq, holds]), stops, andThen_fault]

section
variable {s : State} {cond : CondCode} (holds : truth s cond = true) {md ic : Fin 8} {addr : PAddr} {off : BitVec 24}
  {off6 : BitVec 6} {db la ci : Bool} {clause : Clause} {r : Fault}
include holds

/-- A jump that cannot be taken stops in each of its forms. -/
theorem exec_jumps_fault (may : MayJump la db s) (stops : ∀ t, jumpTaken t db la ci s = .fault r) :
    ∀ i ∈ [Instr.jumpDirect cond addr db la ci, .jumpRel cond off db la ci, .jumpShort cond off6 db la ci clause] ++
      (if TargetOk s md ic then [.jumpInd cond md ic db la ci clause] else []), exec i s = .fault r := by
  have jump : ∀ clause t, run (.jump la db) s (branchEffects cond clause s (jumpTaken t db la ci s)) = .fault r :=
    fun clause t => by rw [run_of_mayJump may, branchEffects_fault holds clause (stops t), andThen_fault]
  refine forall_mem_forms (jump .none addr) (jump .none _) (jump clause _) fun target => ?_
  show run _ s (andThen (s.indirectTarget md ic) _) = _
  rw [indirectTarget_ok target]
  exact jump clause _

/-- A call that cannot be taken stops in each of its forms. -/
theorem exec_calls_fault (ready : ReadyToBranch s) (stops : ∀ t, callTaken t db s = .fault r) :
    ∀ i ∈ [Instr.callDirect cond addr db, .callRel cond off db, .callShort cond off6 db clause] ++
      (if TargetOk s md ic then [.callInd cond md ic db clause] else []), exec i s = .fault r := by
  have call : ∀ clause t, run .flow s (branchEffects cond clause s (callTaken t db s)) = .fault r :=
    fun clause t => by rw [run_of_readyToBranch ready, branchEffects_fault holds clause (stops t), andThen_fault]
  refine forall_mem_forms (call .none addr) (call .none _) (call clause _) fun target => ?_
  show run _ s (andThen (s.indirectTarget md ic) _) = _
  rw [indirectTarget_ok target]
  exact call clause _

theorem exec_rts_fault (ready : ReadyToBranch s) {lr : Bool} (stops : rtsTaken db lr s = .fault r) :
    exec (.rts cond db lr clause) s = .fault r := by
  show run .flow s _ = _
  rw [run_of_readyToBranch ready, branchEffects_fault holds clause stops, andThen_fault]

/-- A taken `RTI` is its operation, then the return (43_program_flow R215). -/
theorem exec_rti_taken (ready : ReadyToBranch s) :
    exec (.rti cond db clause) s =
      andThen (returnFromInterrupt (applyCompute .compute (clausePart clause true) s.computeInput s))
        fun p => retire (branchTo db true p.1) p.2 := by
  rw [exec_rti ready, if_pos holds, holds]

end

/-- An indirect branch, taken or not, first computes its target (43_program_flow R208). -/
theorem exec_indirect {s : State} (ready : ReadyToBranch s) {cond : CondCode} {md ic ia mb : Fin 8} {db la ci : Bool}
    {clause : Clause} {c : Compute} {dir : Dir} {r : DReg} :
    ∀ i ∈ ([.jumpInd cond md ic db la ci clause, .callInd cond md ic db clause, .jumpIndMove cond md ic c dir ia mb r] :
      List Instr), ∃ f, exec i s = andThen (s.indirectTarget md ic) f := by
  have first : ∀ k f, ∃ g, run k s (andThen (s.indirectTarget md ic) f) = andThen (s.indirectTarget md ic) g :=
    fun k f => ⟨_, by rw [run_of_readyToBranch ready, andThen_assoc]⟩
  simp only [List.forall_mem_cons]
  exact ⟨first _ _, first _ _, first _ _, List.forall_mem_nil _⟩

end Sys2Proof.Machine

namespace Sys2Proof.Safety
open Sys2Proof.Machine

/-- Settles O58: each stop is that of a pop, a push or a target, in every form that makes it. -/
theorem branchStops : Obligations.BranchStops := by
  intro s cond md ic ia mb addr off off6 db la ci clause c dir r jumps calls
  refine ⟨fun ready holds => ⟨?refusedLR, fun other => ?rts, fun outside => ?rtiOutside, fun service other => ?rtiKind,
      fun service top => ⟨fun empty => ?rtiEmpty, fun reserved => ?rtiReserved⟩, fun full => ?calls⟩,
    fun may holds => ⟨fun empty => ?noLoop, fun loop other => ?loopKind⟩, fun may holds outside => ?clear,
    fun i form ready => ?indirect⟩
  case refusedLR => exact exec_rts_fault holds ready rfl
  case rts =>
    refine exec_rts_fault holds ready ?_
    unfold rtsTaken
    rw [popPc_stackKind other]
    rfl
  case rtiOutside =>
    rw [exec_rti_taken holds ready, returnFromInterrupt_none (by simpa using outside), andThen_fault]
  case rtiKind =>
    rw [exec_rti_taken holds ready, returnFromInterrupt_stackKind (by simpa using service) (by simpa using other),
      andThen_fault]
  case rtiEmpty =>
    obtain ⟨t, pops⟩ := returnFromInterrupt_of_saved
      (s := applyCompute .compute (clausePart clause true) s.computeInput s) (by simpa using service) (by simpa using top)
    rw [exec_rti_taken holds ready, pops, popStatus_empty (by simpa using empty)]
    rfl
  case rtiReserved =>
    obtain ⟨t, pops⟩ := returnFromInterrupt_of_saved
      (s := applyCompute .compute (clausePart clause true) s.computeInput s) (by simpa using service) (by simpa using top)
    obtain ⟨e, head, set⟩ := reserved
    rw [exec_rti_taken holds ready, pops, popStatus_reserved (by simpa using head) set]
    rfl
  case calls =>
    refine exec_calls_fault holds ready fun t => ?_
    unfold callTaken
    rw [pushPc_eq, if_pos full, andThen_fault]
  case noLoop =>
    refine exec_jumps_fault holds may fun t => ?_
    unfold jumpTaken
    rw [if_pos rfl, abortLoop_empty empty, andThen_fault]
  case loopKind =>
    refine exec_jumps_fault holds may fun t => ?_
    unfold jumpTaken
    rw [if_pos rfl, abortLoop_stackKind loop other, andThen_fault]
  case clear =>
    refine exec_jumps_fault holds may fun t => ?_
    unfold jumpTaken
    rw [if_neg nofun, andThen_next, if_pos rfl, clearInterrupt_none outside, andThen_fault]
  case indirect =>
    obtain ⟨f, he⟩ := exec_indirect ready i form
    rw [he]
    refine ⟨fun i8 reversed => ?_, fun plain high => ?_⟩
    · rw [indirectTarget_reversed i8 reversed, andThen_refused]
    · rw [indirectTarget_range plain high, andThen_fault]

end Sys2Proof.Safety
end

section
/-! CERTIFICATE. One step: the agents' moves, of which the timer's cycles are at least one, then the core: idle, taking an interrupt, or
running what stands at `pc`; and the bytes of a placed word. -/

namespace Sys2Proof.Machine
open Sys2Proof.Safety Sys2Proof.Laws

/-! ### The agents' moves -/

theorem envMove_cycle (mv : EnvMove) (s : State) : (envMove mv s).cycle = s.cycle := by
  have latched : (mv.latches.foldl (fun t src => latch src.interrupt t) s).cycle = s.cycle :=
    List.foldlRecOn (motive := fun t : State => t.cycle = s.cycle) mv.latches _ rfl fun _ ht _ _ => ht
  refine List.foldlRecOn (motive := fun t : State => t.cycle = s.cycle) mv.writes envWrite latched fun t ht w _ => ?_
  unfold envWrite
  split <;> exact ht

theorem envStep_cycle (s : State) : (envStep s).cycle = s.cycle := by
  unfold envStep
  split
  · rfl
  · exact envMove_cycle _ _

theorem cycleStep_cycle (s : State) : (cycleStep s).cycle = s.cycle := by
  unfold cycleStep timerStep
  dsimp only
  repeat' split
  all_goals rfl

theorem cycles_cycle (k : Nat) (s : State) : (cycles k s).cycle = s.cycle := by
  induction k generalizing s with
  | zero => rfl
  | succ k ih => exact (ih _).trans (cycleStep_cycle s)

/-- The timer runs at least one cycle: where it is paused and TIMEXP is low, a cycle changes nothing (60_exceptions R280, R281). -/
theorem runCycles_eq_cycles (s : State) : ∃ k, 1 ≤ k ∧ runCycles s = cycles k s := by
  unfold runCycles
  split
  · rename_i paused
    simp only [Bool.and_eq_true, Bool.not_eq_true', beq_iff_eq] at paused
    obtain ⟨off, low⟩ := paused
    have still : { s with timexp := s.timexp - 1 } = s := by
      rw [show s.timexp - 1 = s.timexp by omega]
    have one : cycles 1 s = s := by
      show cycleStep s = s
      unfold cycleStep
      rw [still]
      exact if_neg (by rw [off]; nofun)
    exact ⟨1, Nat.le_refl 1, one.symm⟩
  · exact ⟨_, Nat.le_add_right 1 _, rfl⟩

/-- What the fetch and the choice between awake and idle look at. -/
def fetchFields (s : State) := (s.idle, s.pc, s.code, s.mode1Wrote)

theorem agents_fetchFields (s : State) : fetchFields (agents s) = fetchFields s :=
  (agentEffects_agents s).preserves (P := fun t => fetchFields t = fetchFields s) (fun a b h ha => by cases h <;> exact ha) rfl

theorem agents_idle (s : State) : (agents s).idle = s.idle := congrArg (·.1) (agents_fetchFields s)

theorem agents_mode1Wrote (s : State) : (agents s).mode1Wrote = s.mode1Wrote := congrArg (·.2.2.2) (agents_fetchFields s)

/-- The bytes at `pc` stay where they are (20_memory R62). -/
theorem agents_codeBytes (s : State) : (agents s).codeBytes (agents s).pc = s.codeBytes s.pc :=
  congrArg (fun f : Bool × PAddr × Memory × Bool => Memory.readBytes f.2.2.1 (codeCell f.2.1) 6) (agents_fetchFields s)

/-! ### The core's part -/

theorem step_takes {s : State} {n : Interrupt} (due : (agents s).takeable = some n) (now : (agents s).irqWaitNow = 0) :
    step s = takeInterrupt n (agents s) := by
  unfold step coreStep
  simp only [due, now]

theorem step_waits {s : State} (idle : s.idle = true) (quiet : (agents s).takeable = none) :
    step s = .next { agents s with irqWait := none } := by
  unfold step coreStep
  simp only [quiet, agents_idle, idle]
  rfl

theorem irqWaitNow_of_waitLeft {s : State} {k : Nat} (awake : s.idle = false) (wait : WaitLeft s k) : s.irqWaitNow = k := by
  unfold State.irqWaitNow
  obtain held | ⟨fresh, free⟩ := wait
  · simp [awake, held]
  · simp [awake, fresh, free]

/-- An awake core that takes no interrupt runs what it fetches (43_program_flow R200). -/
theorem step_runs {s : State} {wait : Option Nat} (awake : s.idle = false) (free : NoneTaken (agents s) wait) :
    step s = andThen (State.fetch { agents s with irqWait := wait })
      fun i => withLatency (exec i) { agents s with irqWait := wait } := by
  have awake : (agents s).idle = false := (agents_idle s).trans awake
  unfold step coreStep
  obtain ⟨quiet, rfl⟩ | ⟨n, k, due, left, rfl⟩ := free
  · simp only [quiet, awake]
    rfl
  · simp only [due, irqWaitNow_of_waitLeft awake left]

theorem fetch_unmapped {s : State} (absent : s.codeBytes s.pc = none) : s.fetch = .fault .fetchUnmapped := by
  unfold State.fetch
  simp only [absent]

section
variable {s : State} {bs : List Byte} (bytes : s.codeBytes s.pc = some bs)
include bytes

theorem fetch_undecodable {e : DecodeError} (bad : decodeBytes bs = .error e) : s.fetch = .fault (.undecodable e) := by
  unfold State.fetch
  simp only [bytes, bad]

theorem fetch_decoded {i : Instr} {rest : List Byte} (good : decodeBytes bs = .ok (i, rest)) : s.fetch = .next i := by
  unfold State.fetch
  simp only [bytes, good]

end

/-- Away from a MODE1 write an instruction runs under the value in force alone (10_state R46). -/
theorem withLatency_settled {s : State} (settled : s.mode1Wrote = false) (f : State → Result) : withLatency f s = f s := by
  have same : { s with mode1Wrote := false } = s := by rw [← settled]
  unfold withLatency
  rw [same, settled]
  rfl

/-! ### A placed word -/

/-- A word's bytes stand where it is placed, and are decoded as the word is (30_encoding R91). -/
theorem decodeBytes_placeWord {i : Instr} (wf : i.WellFormed) (p : PAddr) (s : State) :
    ∃ bs, (placeWord p (encode i) s).codeBytes p = some bs ∧ decodeBytes bs = .ok (i, []) := by
  have number : Config.wordCode.symm (encode i) = termNumber i := ((encode_eq_iff i _).1 rfl).symm
  refine ⟨_, codeBytes_placeCode p _ s, ?_⟩
  rw [number, decodeBytes_wordBytes, termOf_eq_ok_iff.2 ⟨wf, rfl⟩]

/-- A placed word leaves the bytes of every other address. -/
theorem codeBytes_placeWord_other {p q : PAddr} (h : q ≠ p) (w : IWord) (s : State) :
    (placeWord p w s).codeBytes q = s.codeBytes q := by
  have apart : q.toNat ≠ p.toNat := fun e => h (BitVec.eq_of_toNat_eq e)
  refine Memory.readBytes_congr fun y low high => Memory.read_writeBytes_outside _ _ _ _ ?_
  rw [wordBytes, length_splitBytes]
  unfold codeCell at *
  omega

end Sys2Proof.Machine

namespace Sys2Proof.Safety
open Sys2Proof.Machine

/-- Settles O40. -/
theorem idleWaitsForInterrupt : Obligations.IdleWaitsForInterrupt := by
  refine fun s => ⟨?_, fun idle => ⟨step_waits idle, fun n due => step_takes due ?_⟩⟩
  · obtain ⟨k, one, run⟩ := runCycles_eq_cycles (samplePins (envStep s))
    have count : (cycles k (samplePins (envStep s))).cycle = s.cycle := (cycles_cycle k _).trans (envStep_cycle s)
    refine ⟨k, one, ?_⟩
    unfold agents
    rw [run]
    dsimp only
    rw [count]
  · unfold State.irqWaitNow
    rw [agents_idle, idle]
    rfl

/-- Settles O41: what stands at `pc` is as before the agents' moves. -/
theorem stepRunsDecoded : Obligations.StepRunsDecoded := by
  refine ⟨fun s awake => ⟨fun n due left => ?_, ?_⟩, fun s i w => ⟨fun wf => decodeBytes_placeWord wf s.pc s,
    fun p hp => codeBytes_placeWord_other hp w s⟩⟩
  · exact step_takes due (irqWaitNow_of_waitLeft ((agents_idle s).trans awake) left)
  intro wait free base
  have here : base.codeBytes base.pc = s.codeBytes s.pc := agents_codeBytes s
  rw [step_runs awake free]
  refine ⟨fun absent => ?_, fun bs bytes => ⟨fun e bad => ?_, fun i rest good => ?_⟩⟩
  · rw [fetch_unmapped (here.trans absent), andThen_fault]
  · rw [fetch_undecodable (here.trans bytes) bad, andThen_fault]
  · rw [fetch_decoded (here.trans bytes) good, andThen_next]
    exact ⟨fun settled => withLatency_settled (s := base) ((agents_mode1Wrote s).trans settled) (exec i), fun _ => rfl⟩

end Sys2Proof.Safety
end

section
/-! CERTIFICATE. The system registers: `BIT SET`, `CLR` and `TGL` are a write of the register of that name (`changeSreg_ok`), `BIT TST`
and `BIT XOR` write BTF, and `PUSH STS` and `POP STS` are one operation of the status stack each. -/

namespace Sys2Proof.Machine
open Sys2Proof.Safety

/-! ### Changes of a system register -/

/-- A change that the register may hold is the write of the universal register of its name (44_system_register R230). -/
theorem changeSreg_ok {r : SReg} {f : Word → Word} {s : State} (ok : changeable r (f (sregHeld s r)) s = true) :
    changeSreg r f s = .next (uregWritten (sregAsUreg r) (f (sregHeld s r)) s) := by
  obtain ⟨write, pointers⟩ := Bool.and_eq_true_iff.1 ok
  cases r
  case lirptl =>
    obtain ⟨clear, -⟩ := Bool.and_eq_true_iff.1 write
    exact if_pos ⟨beq_iff_eq.1 clear, pointers⟩
  all_goals exact writeUreg_writable write

/-- An instruction that changes a system register in place, whatever the change (44_system_register R231 to R233). -/
theorem runPlain_changeSreg {r : SReg} {f : Word → Word} {s : State} (ready : Ready s)
    (ok : changeable r (f (sregHeld s r)) s = true) :
    runPlain .plain s (changeSreg r f s) = .next (advance (uregWritten (sregAsUreg r) (f (sregHeld s r)) s)) :=
  runPlain_effects ready (changeSreg_ok ok) ((SamePlace.refl s).uregWritten _ _)

theorem admitted_eq_false_iff (r : SReg) :
    r.admitted = false ↔ r ∈ [.flags, .imaskp, .stky, .ustat2, .ustat3, .ustat4] := by
  cases r <;> decide

/-- A term whose constraint is that of its system register is no instruction where the register is not admitted (the spec's
D41). -/
theorem not_wellFormed_of_sreg {i : Instr} {r : SReg} (template : i.illFormed = checkSreg r) (other : r.admitted = false) :
    ¬ i.WellFormed := by
  simp [Instr.WellFormed, template, checkSreg, broken, other]

/-! ### Bit tests -/

/-- A field set to ones is the OR with its mask. -/
theorem clear_or_mask {w : Nat} (a m : BitVec w) : (a &&& ~~~m) ||| m = a ||| m := by
  apply BitVec.eq_of_getLsbD_eq
  intro k hk
  simp only [BitVec.getLsbD_or, BitVec.getLsbD_and, BitVec.getLsbD_not, hk, decide_true, Bool.true_and]
  cases m.getLsbD k <;> simp

/-- A bit test sets or clears bit 18 of ASTAT alone (10_state R34). -/
theorem withBtf_eq (astat : Word) (truth : Bool) :
    withBtf astat truth = if truth then astat ||| 0x00040000 else astat &&& 0xFFFBFFFF := by
  cases truth with
  | true => exact clear_or_mask astat btfMask
  | false => exact BitVec.or_zero

/-- A bit test of an admitted register, whatever the test (44_system_register R234, R235). -/
theorem runPlain_testSreg {r : SReg} {s : State} (ready : Ready s) (admitted : r.admitted = true) (test : Word → Prop)
    [DecidablePred test] :
    runPlain .plain s (testSreg r (fun v => decide (test v)) s) =
      .next (advance { s with
        astat := if test (uregRead s (sregAsUreg r)) then s.astat ||| 0x00040000 else s.astat &&& 0xFFFBFFFF }) := by
  refine runPlain_effects ready ?_ ⟨rfl, rfl, rfl, rfl⟩
  rw [testSreg, readSreg_eq admitted, andThen_next, withBtf_eq]
  simp only [decide_eq_true_eq]

/-! ### The status stack -/

/-- An instruction that does not branch and may stand in a loop's tail is its effects, then its end, in any delay slot that admits
it. -/
theorem runPlain_of_ready {k : FlowKind} {s : State} (ready : Ready s) (slot : ∀ d, s.dly = some d → k.inSlot d = true)
    (tail : k.inTail = true) (effects : Result) : runPlain k s effects = andThen effects (retire .noBranch) := by
  obtain ⟨sisd, -⟩ := ready
  unfold runPlain
  rw [run_eq sisd slot fun _ => tail, andThen_assoc]
  rfl

theorem pushStatus_ok {s : State} (room : s.statusStack.length < 15) : pushStatus s = .next (statusPushed s) :=
  pushStatus_eq_next.2 ⟨room, rfl⟩

theorem pushStatus_full {s : State} (full : 15 ≤ s.statusStack.length) : pushStatus s = .fault .statusStackOverflow :=
  if_pos full

/-- `PUSH STS` outside delay slots (43_program_flow R223, 44_system_register R240). -/
theorem exec_pushSts {s : State} (outside : ReadyOutside s) : exec .pushSts s = andThen (pushStatus s) (retire .noBranch) := by
  obtain ⟨ready, noSlot⟩ := outside
  exact runPlain_of_ready ready (fun d hd => nomatch noSlot.symm.trans hd) rfl _

/-- `POP STS`, in a delay slot only of `RTI (DB)` (43_program_flow R223, 44_system_register R241). -/
theorem exec_popSts {s : State} (ready : Ready s) (byRti : ∀ d ∈ s.dly, d.byRti = true) :
    exec .popSts s = andThen (popStatus s) (retire .noBranch) :=
  runPlain_of_ready (k := .popSts) ready byRti rfl _

end Sys2Proof.Machine

namespace Sys2Proof.Safety
open Sys2Proof.Machine

/-- Settles O27: each of the three is a write of the changed value; the refusal is the one constraint of all five forms. -/
theorem bitChangeResult : Obligations.BitChangeResult := by
  refine fun r data s => ⟨admitted_eq_false_iff r, fun other i form => ?_, fun ready _ => ?_⟩
  · simp only [List.mem_cons, List.not_mem_nil, or_false] at form
    obtain rfl | rfl | rfl | rfl | rfl := form <;> exact not_wellFormed_of_sreg rfl other
  · exact ⟨runPlain_changeSreg (f := (· ||| data)) ready, runPlain_changeSreg (f := (· &&& ~~~data)) ready,
      runPlain_changeSreg (f := (· ^^^ data)) ready⟩

/-- Settles O28: both are a bit test, with their own test. -/
theorem bitTestResult : Obligations.BitTestResult := fun _ data _ ready admitted =>
  ⟨runPlain_testSreg ready admitted (· &&& data = data), runPlain_testSreg ready admitted (· = data)⟩

/-- Settles O29: the push and the pop succeed or stop by the depth of the stack and the reserved bits of the entry, and leave the
instruction's place. -/
theorem statusStackResult : Obligations.StatusStackResult := by
  refine fun e s => ⟨fun outside room => ?_, fun outside full => ?_, fun ready byRti =>
    ⟨fun top clear => ?_, fun top set => ?_, fun empty => ?_⟩⟩
  · have place : SamePlace s (statusPushed s) := ⟨rfl, rfl, rfl, rfl⟩
    obtain ⟨⟨-, canEnd⟩, -⟩ := id outside
    rw [exec_pushSts outside, pushStatus_ok room]
    exact retire_noBranch (place.canEnd canEnd)
  · rw [exec_pushSts outside, pushStatus_full full, andThen_fault]
  · have place : SamePlace s (statusPopped e s) := ⟨rfl, rfl, rfl, rfl⟩
    obtain ⟨-, canEnd⟩ := id ready
    rw [exec_popSts ready byRti, popStatus_ok top clear]
    exact retire_noBranch (place.canEnd canEnd)
  · rw [exec_popSts ready byRti, popStatus_reserved top set, andThen_refused]
  · rw [exec_popSts ready byRti, popStatus_empty empty, andThen_fault]

end Sys2Proof.Safety
end

section
/-! CERTIFICATE. Interrupts: which one is taken, what its entry does (`takeInterrupt_eq`), and that `RTI` at the vector undoes it. -/

namespace Sys2Proof.Machine
open Sys2Proof.Safety

/-! ### Which interrupt is taken -/

/-- In a list of rising keys the first element that passes is the one of least key that passes. -/
theorem find?_eq_some_iff_least {α : Type} {p : α → Bool} {key : α → Nat} {l : List α}
    (rising : l.Pairwise fun a b => key a < key b) {x : α} :
    l.find? p = some x ↔ x ∈ l ∧ p x = true ∧ ∀ y ∈ l, p y = true → y ≠ x → key x < key y := by
  rw [List.find?_eq_some_iff_append]
  constructor
  · rintro ⟨px, before, after, rfl, fail⟩
    obtain ⟨-, tail, -⟩ := List.pairwise_append.1 rising
    refine ⟨List.mem_append_right _ List.mem_cons_self, px, fun y hy py other => ?_⟩
    obtain early | late := List.mem_append.1 hy
    · exact absurd py (by simpa using fail y early)
    · exact List.rel_of_pairwise_cons tail ((List.mem_cons.1 late).resolve_left other)
  · rintro ⟨hx, px, least⟩
    obtain ⟨before, after, rfl⟩ := List.append_of_mem hx
    obtain ⟨-, -, apart⟩ := List.pairwise_append.1 rising
    refine ⟨px, before, after, rfl, fun y hy => ?_⟩
    have lower : key y < key x := apart y hy x List.mem_cons_self
    by_contra passes
    have upper := least y (List.mem_append_left _ hy) (by simpa using passes) fun same => by simp [same] at lower
    exact absurd lower upper.not_gt

theorem byPriority_rising : Interrupt.byPriority.Pairwise fun a b => a.offset < b.offset := by decide

/-- All but EMUI and RSTI can be taken (60_exceptions R251, log 26). -/
theorem mem_byPriority_iff (n : Interrupt) : n ∈ Interrupt.byPriority ↔ n ≠ .emui ∧ n ≠ .rsti := by
  cases n <;> decide

theorem nestingAllows_iff (s : State) (n : Interrupt) :
    s.nestingAllows n = true ↔
      s.isrv = [] ∨ s.mode1.getLsbD 11 = true ∧ ∃ h ∈ s.isrv.head?, (vectorRow n).offset < (vectorRow h).offset := by
  unfold State.nestingAllows
  cases s.isrv <;> simp [State.nestm, offset_eq]

theorem mayTake_iff (s : State) (n : Interrupt) :
    MayTake s n ↔ n ∈ Interrupt.byPriority ∧ (s.latched n && s.enabled n && s.nestingAllows n) = true := by
  rw [MayTake, mem_byPriority_iff, isLatched_eq, isEnabled_eq, ← nestingAllows_iff]
  simp only [Bool.and_eq_true, and_assoc]

theorem takeable_eq_some_iff (s : State) (n : Interrupt) :
    s.takeable = some n ↔ s.dly = none ∧ s.mode1Wrote = false ∧
      Interrupt.byPriority.find? (fun k => s.latched k && s.enabled k && s.nestingAllows k) = some n := by
  unfold State.takeable
  cases s.dly <;> cases s.mode1Wrote <;> simp

/-! ### Entry -/

/-- The interrupted state with its latch cleared and the return address pushed (60_exceptions R263). -/
def returnPushed (n : Interrupt) (s : State) : State := pcPushed s.pc .interrupt (unlatch n s)

/-- What the entry of an interrupt saves: the return address, and for the six that save it the status (60_exceptions R263, R264). -/
def contextSaved (n : Interrupt) (s : State) : State :=
  if n ∈ statusInterrupts then statusPushed (returnPushed n s) else returnPushed n s

/-- The interrupt is in service, control at its vector (60_exceptions R263). -/
def atVector (n : Interrupt) (s : State) : State :=
  { s with isrv := n :: s.isrv, idle := false, irqWait := none, pc := s.vector n }

/-- The state right after the entry. -/
def entered (n : Interrupt) (s : State) : State := atVector n (contextSaved n s)

theorem entered_eq (n : Interrupt) (s : State) :
    n ∈ statusInterrupts ∧ entered n s = atVector n (statusPushed (returnPushed n s)) ∨
      n ∉ statusInterrupts ∧ entered n s = atVector n (returnPushed n s) := by
  unfold entered contextSaved
  by_cases saves : n ∈ statusInterrupts
  · exact .inl ⟨saves, by rw [if_pos saves]⟩
  · exact .inr ⟨saves, by rw [if_neg saves]⟩

theorem vector_eq (s : State) (n : Interrupt) :
    s.vector n = (if s.noBoot then 0x200000 else 0x040000) + BitVec.ofNat 24 (vectorRow n).offset := by
  rw [offset_eq]
  rfl

/-- With room on the PC stack, what is left to the entry is the status of the six interrupts that save it. -/
theorem takeInterrupt_of_room {n : Interrupt} {s : State} (room : s.pcStack.length < 30) :
    takeInterrupt n s =
      andThen (if n ∈ statusInterrupts then pushStatus (returnPushed n s) else .next (returnPushed n s))
        fun u => .next { u with isrv := n :: u.isrv, idle := false, irqWait := none, pc := s.vector n } := by
  have pushed : pushPc s.pc .interrupt (unlatch n s) = .next (returnPushed n s) := pushPc_eq_next.2 ⟨room, rfl⟩
  unfold takeInterrupt
  rw [pushed, andThen_next]
  simp only [mem_statusInterrupts]

/-- Interrupt entry, with its two stops (60_exceptions R263, R264, R297, 10_state R30, R32). -/
theorem takeInterrupt_eq (n : Interrupt) (s : State) :
    takeInterrupt n s =
      if 30 ≤ s.pcStack.length then .fault .pcStackOverflow
      else if n ∈ statusInterrupts ∧ 15 ≤ s.statusStack.length then .fault .statusStackOverflow
      else .next (entered n s) := by
  by_cases full : 30 ≤ s.pcStack.length
  · rw [if_pos full, takeInterrupt, pushPc_eq, unlatch_pcStack, if_pos full, andThen_fault]
  rw [if_neg full, takeInterrupt_of_room (Nat.lt_of_not_le full)]
  obtain ⟨saves, after⟩ | ⟨plain, after⟩ := entered_eq n s
  · by_cases deep : 15 ≤ s.statusStack.length
    · rw [if_pos saves, if_pos ⟨saves, deep⟩, pushStatus_full (s := returnPushed n s) deep, andThen_fault]
    · rw [if_pos saves, if_neg fun h => deep h.2, after,
        pushStatus_ok (s := returnPushed n s) (Nat.lt_of_not_le deep)]
      rfl
  · rw [if_neg plain, if_neg fun h => plain h.1, after]
    rfl

/-! ### Entry and return -/

theorem mergeBits_self (m a : Word) : mergeBits m a a = a := by
  unfold mergeBits
  rw [← BitVec.and_or_distrib_left, BitVec.or_comm, BitVec.or_not_self, BitVec.and_allOnes]

section
variable {n : Interrupt} {s : State}

/-- An entry leaves the place ready for the `RTI` at the vector, but for a loop's tail (60_exceptions R270). -/
theorem entered_readyToBranch (sisd : Sisd s) (noSlot : s.dly = none) (noTail : ¬ InTail (entered n s)) :
    ReadyToBranch (entered n s) := by
  have same : (entered n s).mode1Act = s.mode1Act ∧ (entered n s).dly = s.dly := by
    obtain ⟨-, after⟩ | ⟨-, after⟩ := entered_eq n s <;> rw [after] <;> exact ⟨rfl, rfl⟩
  obtain ⟨act, dly⟩ := same
  exact ⟨by rw [Sisd, act]; exact sisd, dly.trans noSlot, noTail⟩

/-- `RTI` finds what the entry pushed (60_exceptions R263, R270). -/
theorem entered_canReturn (clear : s.mode1Act &&& 0xFE180300 = 0) : CanReturn (entered n s) n s.pc := by
  obtain ⟨-, after⟩ | ⟨plain, after⟩ := entered_eq n s
  · rw [after]
    exact ⟨rfl, rfl, fun _ => ⟨_, rfl, clear⟩⟩
  · rw [after]
    exact ⟨rfl, rfl, fun saves => absurd saves plain⟩

/-- After the return only the latches, the idle state, the interrupt's wait and the note of a MODE1 write differ from the
interrupted state (60_exceptions R263, R270). -/
theorem returned_entered (settled : s.mode1Act = s.mode1) :
    ∃ irptl lirptl wrote, { returned n (entered n s) with pc := s.pc } =
      { s with irptl := irptl, lirptl := lirptl, mode1Wrote := wrote, idle := false, irqWait := none } := by
  obtain ⟨saves, after⟩ | ⟨plain, after⟩ := entered_eq n s
  · have popped : returned n (entered n s) =
        statusPopped ⟨s.mode1Act, s.astat⟩ { entered n s with pcStack := s.pcStack, isrv := s.isrv } := by
      rw [after]
      exact if_pos saves
    have astat : (s.astat &&& ~~~0x00780000) ||| (s.astat &&& 0x00780000) = s.astat := mergeBits_self _ _
    refine ⟨(returnPushed n s).irptl, (returnPushed n s).lirptl, true, ?_⟩
    rw [popped, after]
    simp only [statusPopped, atVector, statusPushed, returnPushed, pcPushed, unlatch, astat, settled, List.tail_cons]
  · have popped : returned n (entered n s) = { entered n s with pcStack := s.pcStack, isrv := s.isrv } := by
      rw [after]
      unfold returned
      simp only [if_neg plain]
      split <;> rfl
    refine ⟨(returnPushed n s).irptl, (returnPushed n s).lirptl, s.mode1Wrote, ?_⟩
    rw [popped, after]
    rfl

end

end Sys2Proof.Machine

namespace Sys2Proof.Safety
open Sys2Proof.Machine

/-- Settles O37: the core takes the first takeable interrupt of the priority list, whose offsets rise. -/
theorem takenInterruptIsHighest : Obligations.TakenInterruptIsHighest := by
  intro s n
  rw [takeable_eq_some_iff, find?_eq_some_iff_least byPriority_rising]
  simp only [mayTake_iff, offset_eq, and_assoc, and_imp]

/-- Settles O38. -/
theorem interruptEntryEffect : Obligations.InterruptEntryEffect := by
  intro n s
  refine ⟨fun room status => ?_, fun full => ?_, fun room saves deep => ?_⟩
  · have shallow : ¬ (n ∈ statusInterrupts ∧ 15 ≤ s.statusStack.length) := fun h => (status h.1).not_ge h.2
    rw [takeInterrupt_eq, if_neg room.not_ge, if_neg shallow, latchCleared_eq, ← vector_eq]
    obtain ⟨saves, after⟩ | ⟨plain, after⟩ := entered_eq n s
    · simp only [after, if_pos saves]
      rfl
    · simp only [after, if_neg plain]
      rfl
  · rw [takeInterrupt_eq, if_pos full]
  · rw [takeInterrupt_eq, if_neg room.not_ge, if_pos ⟨saves, deep⟩]

/-- Settles O39: `RTI` pops exactly what the entry pushed. -/
theorem entryThenReturnRestores : Obligations.EntryThenReturnRestores := by
  intro n s t entry sisd noSlot settled clear noTail
  obtain rfl : entered n s = t := by
    rw [takeInterrupt_eq] at entry
    split at entry
    · cases entry
    · split at entry
      · cases entry
      · exact Host.Outcome.next.inj entry
  have returns := rtiResult .always false .none n s.pc (entered n s) (entered_readyToBranch sisd noSlot noTail)
    fun _ => entered_canReturn (by rw [settled]; exact clear)
  obtain ⟨irptl, lirptl, wrote, back⟩ := returned_entered (n := n) settled
  refine ⟨{ returned n (entered n s) with pc := s.pc }, returns, ?_⟩
  rw [back]
  exact ⟨rfl, rfl, rfl, rfl, rfl, rfl, rfl, rfl, rfl, rfl, rfl, rfl⟩

end Sys2Proof.Safety
end

section
/-! CERTIFICATE. The agents around the core: the timer counts down and reloads (`cycles_counting`), the flag pins are sampled, and a
move of the environment is one new state (`envStep_of_cons`) whose memory is the old one with the `shared` words written. -/

namespace Sys2Proof.Machine
open Sys2Proof.Safety

/-! ### The timer -/

theorem cycles_add (j k : Nat) (s : State) : cycles (j + k) s = cycles k (cycles j s) := by
  induction j generalizing s with
  | zero => rw [Nat.zero_add]; rfl
  | succ j ih => rw [Nat.succ_add]; exact ih (cycleStep s)

theorem cycles_succ (k : Nat) (s : State) : cycles (k + 1) s = cycleStep (cycles k s) := cycles_add k 1 s

/-- A cycle of the paused timer (60_exceptions R280, log 37). -/
theorem cycleStep_paused {s : State} (off : s.mode2.getLsbD 5 = false) : cycleStep s = { s with timexp := s.timexp - 1 } :=
  if_neg (Bool.eq_false_iff.1 off)

/-- A cycle that finds a count left (60_exceptions R281). -/
theorem cycleStep_counting {s : State} (on : s.mode2.getLsbD 5 = true) (left : s.tcount ≠ 0) :
    cycleStep s = { s with tcount := s.tcount - 1, timexp := s.timexp - 1 } :=
  (if_pos on).trans (if_neg left)

/-- The cycle that finds 0 (60_exceptions R281, R282): the reload, the pulse, and both latches. -/
theorem cycleStep_reload {s : State} (on : s.mode2.getLsbD 5 = true) (zero : s.tcount = 0) :
    cycleStep s = { s with tcount := s.tperiod, timexp := 4, irptl := s.irptl ||| 0x00400010 } := by
  have reload : cycleStep s = latch .tmzhi (latch .tmzli { s with tcount := s.tperiod, timexp := 4 }) :=
    (if_pos on).trans (if_pos zero)
  have irptl : s.irptl ||| Interrupt.irptlBit .tmzli ||| Interrupt.irptlBit .tmzhi = s.irptl ||| 0x00400010 :=
    BitVec.or_assoc ..
  have lirptl : s.lirptl ||| Interrupt.lirptlBit .tmzli ||| Interrupt.lirptlBit .tmzhi = s.lirptl :=
    BitVec.or_zero.trans BitVec.or_zero
  rw [reload]
  simp only [latch, irptl, lirptl]

theorem cycles_paused {s : State} (off : s.mode2.getLsbD 5 = false) (k : Nat) :
    cycles k s = { s with timexp := s.timexp - k } := by
  induction k with
  | zero => rfl
  | succ k ih =>
    rw [cycles_succ, ih]
    exact cycleStep_paused off

/-- The timer counts down, one a cycle, as long as a count is left (60_exceptions R281). -/
theorem cycles_counting {s : State} (on : s.mode2.getLsbD 5 = true) {k : Nat} (left : k ≤ s.tcount.toNat) :
    cycles k s = { s with tcount := s.tcount - BitVec.ofNat 32 k, timexp := s.timexp - k } := by
  induction k with
  | zero => simp [cycles]
  | succ k ih =>
    have nonzero : s.tcount - BitVec.ofNat 32 k ≠ 0 := by bv_omega
    have count : s.tcount - BitVec.ofNat 32 k - 1 = s.tcount - BitVec.ofNat 32 (k + 1) := by bv_omega
    rw [cycles_succ, ih (by omega), ← count]
    exact cycleStep_counting on nonzero

/-- The cycle after the count has run out (60_exceptions R281, R282). -/
theorem cycles_reload {s : State} (on : s.mode2.getLsbD 5 = true) :
    cycles (s.tcount.toNat + 1) s = { s with tcount := s.tperiod, timexp := 4, irptl := s.irptl ||| 0x00400010 } := by
  rw [cycles_succ, cycles_counting on (Nat.le_refl _)]
  exact cycleStep_reload on (by simp)

theorem cycles_frame (k : Nat) (s : State) :
    ∃ tcount irptl timexp, cycles k s = { s with tcount := tcount, irptl := irptl, timexp := timexp } := by
  induction k with
  | zero => exact ⟨_, _, _, rfl⟩
  | succ k ih =>
    obtain ⟨tcount, irptl, timexp, before⟩ := ih
    rw [cycles_succ, before]
    cases timer : s.mode2.getLsbD 5 with
    | false => exact ⟨_, _, _, cycleStep_paused timer⟩
    | true =>
      by_cases zero : tcount = 0
      · exact ⟨_, _, _, cycleStep_reload timer zero⟩
      · exact ⟨_, _, _, cycleStep_counting timer zero⟩

/-! ### Flag pins -/

theorem getLsbD_mergeBits (m a b : Word) {k : Nat} (hk : k < 32) :
    (mergeBits m a b).getLsbD k = if m.getLsbD k then b.getLsbD k else a.getLsbD k := by
  simp only [mergeBits, BitVec.getLsbD_or, BitVec.getLsbD_and, BitVec.getLsbD_not, hk, decide_true, Bool.true_and]
  cases m.getLsbD k <;> simp

/-- Bits apart from a mask are not merged. -/
theorem mergeBits_apart {m k : Word} (apart : m &&& k = 0) (a b : Word) : mergeBits m a b &&& k = a &&& k := by
  refine mergeBits_outside (BitVec.eq_of_getLsbD_eq fun i hi => ?_) apart a b
  have clear := congrArg (·.getLsbD i) apart
  simp only [BitVec.getLsbD_and, BitVec.getLsbD_not, hi, decide_true, Bool.true_and] at clear ⊢
  cases hm : m.getLsbD i <;> simp_all

/-- Flag `n` of ASTAT is an input where its direction bit is 0 (60_exceptions R290). -/
theorem getLsbD_inputFlags (s : State) (n : Fin 4) : s.inputFlags.getLsbD (19 + n.val) = !s.mode2.getLsbD (15 + n.val) := by
  have field : flgMask.getLsbD (19 + n.val) = true := by revert n; decide
  have place : 19 + n.val - 4 = 15 + n.val := by omega
  have low : 19 + n.val < 32 ∧ ¬ 19 + n.val < 4 := by omega
  rw [State.inputFlags, BitVec.getLsbD_and, field, BitVec.getLsbD_not, BitVec.getLsbD_shiftLeft, place]
  simp only [low, decide_true, decide_false, Bool.not_false, Bool.true_and]

/-- Flag `4 + k`, bit `k` of IOFLAG, is an input where its direction bit is 0 (10_state R48, log 15). -/
theorem getLsbD_inputIoflags (s : State) (k : Fin 8) : s.inputIoflags.getLsbD k.val = !s.ioflag.getLsbD (8 + k.val) := by
  have field : (0x000000FF : Word).getLsbD k.val = true := by revert k; decide
  have low : k.val < 32 := by omega
  have values : s.inputIoflags = (0x000000FF : Word) &&& ~~~(s.ioflag >>> 8) := rfl
  rw [values, BitVec.getLsbD_and, field, BitVec.getLsbD_not, BitVec.getLsbD_ushiftRight]
  simp only [low, decide_true, Bool.true_and]

/-- A sampled flag of ASTAT (60_exceptions R290). -/
theorem samplePins_astat (s : State) (n : Fin 4) :
    (samplePins s).astat.getLsbD (19 + n.val) =
      if s.mode2.getLsbD (15 + n.val) then s.astat.getLsbD (19 + n.val) else s.flagPins.getLsbD n.val := by
  have pin : (s.flagPins.setWidth 32 <<< 19 : Word).getLsbD (19 + n.val) = s.flagPins.getLsbD n.val := by
    have low : 19 + n.val < 32 ∧ n.val < 32 := by omega
    simp [low]
  rw [samplePins, getLsbD_mergeBits _ _ _ (by omega), getLsbD_inputFlags, pin]
  cases s.mode2.getLsbD (15 + n.val) <;> rfl

/-- A sampled flag of IOFLAG (60_exceptions R291, log 15). -/
theorem samplePins_ioflag (s : State) (k : Fin 8) :
    (samplePins s).ioflag.getLsbD k.val =
      if s.ioflag.getLsbD (8 + k.val) then s.ioflag.getLsbD k.val else s.flagPins.getLsbD (4 + k.val) := by
  have pin : (s.flagPins.setWidth 32 >>> 4 : Word).getLsbD k.val = s.flagPins.getLsbD (4 + k.val) := by
    have low : 4 + k.val < 32 := by omega
    simp [low]
  rw [samplePins, getLsbD_mergeBits _ _ _ (by omega), getLsbD_inputIoflags, pin]
  cases s.ioflag.getLsbD (8 + k.val) <;> rfl

/-- The sample leaves ASTAT but for FLG0-3, and IOFLAG but for its values. -/
theorem samplePins_outside (s : State) :
    (samplePins s).astat &&& 0xFF87FFFF = s.astat &&& 0xFF87FFFF ∧
      (samplePins s).ioflag &&& 0xFFFFFF00 = s.ioflag &&& 0xFFFFFF00 :=
  ⟨mergeBits_apart (and_clear (by decide) _) _ _, mergeBits_apart (and_clear (by decide) _) _ _⟩

/-! ### The environment -/

theorem sharedAt_iff (s : State) (a : Word) :
    s.sharedAt a = true ↔ s.holdsCode a = false ∧ (s.kindAt .dm a = some .shared ∨ s.kindAt .pm a = some .shared) := by
  simp [State.sharedAt]

/-- The memory after writes of the environment: only those to `shared` words are made (20_memory R74). -/
def sharedWritten (shared : Word → Bool) (m : Memory) (writes : List (Word × Word)) : Memory :=
  writes.foldl (fun m w => if shared w.1 then Memory.writeWord m w.1 w.2 else m) m

/-- A word that no write reaches, or only writes to a word that is not `shared`, is as it was. -/
theorem readWord_sharedWritten_other {shared : Word → Bool} {a : Word} {writes : List (Word × Word)}
    (barred : ∀ w ∈ writes, w.1 = a → shared a = false) (m : Memory) :
    Memory.readWord (sharedWritten shared m writes) a = Memory.readWord m a := by
  refine List.foldlRecOn (motive := fun m' => Memory.readWord m' a = Memory.readWord m a) writes _ rfl fun m' kept w hw => ?_
  split
  · rename_i shares
    have other : a ≠ w.1 := fun same => Bool.noConfusion (shares.symm.trans (same ▸ barred w hw same.symm))
    rw [Memory.readWord_writeWord_other m' w.2 other, kept]
  · exact kept

/-- A `shared` word holds the last value written to it (20_memory R74). -/
theorem readWord_sharedWritten_last {shared : Word → Bool} {a : Word} (shares : shared a = true) (m : Memory)
    (before : List (Word × Word)) (v : Word) {after : List (Word × Word)} (last : ∀ w ∈ after, w.1 ≠ a) :
    Memory.readWord (sharedWritten shared m (before ++ (a, v) :: after)) a = some v := by
  have inOrder : sharedWritten shared m (before ++ (a, v) :: after) =
      sharedWritten shared (Memory.writeWord (sharedWritten shared m before) a v) after := by
    simp only [sharedWritten, List.foldl_append, List.foldl_cons, shares, if_true]
  rw [inOrder, readWord_sharedWritten_other fun w hw same => absurd same (last w hw)]
  exact Memory.readWord_writeWord_same _ a v

theorem foldl_envWrite (writes : List (Word × Word)) (s : State) :
    writes.foldl envWrite s = { s with mem := sharedWritten s.sharedAt s.mem writes } := by
  induction writes generalizing s with
  | nil => rfl
  | cons w writes ih =>
    have one : envWrite s w = { s with mem := if s.sharedAt w.1 then Memory.writeWord s.mem w.1 w.2 else s.mem } := by
      unfold envWrite
      split <;> rfl
    rw [List.foldl_cons, one, ih]
    rfl

/-- The latches that sources outside the core set (60_exceptions R253). -/
theorem foldl_latch (sources : List EnvSource) (s : State) :
    sources.foldl (fun t src => latch src.interrupt t) s =
      { s with
        irptl := sources.foldl (fun v src => v ||| sourceIrptl src) s.irptl
        lirptl := sources.foldl (fun v src => v ||| sourceLirptl src) s.lirptl } := by
  induction sources generalizing s with
  | nil => rfl
  | cons src sources ih =>
    rw [List.foldl_cons, latch_source, ih]
    rfl

/-- The state after a move of the environment (10_state R10, 60_exceptions R253, 20_memory R74). -/
def envMoved (mv : EnvMove) (rest : List EnvMove) (s : State) : State :=
  { s with
    env := rest
    flagPins := mv.pins.getD s.flagPins
    irptl := mv.latches.foldl (fun v src => v ||| sourceIrptl src) s.irptl
    lirptl := mv.latches.foldl (fun v src => v ||| sourceLirptl src) s.lirptl
    mem := sharedWritten s.sharedAt s.mem mv.writes }

theorem envStep_of_nil {s : State} (empty : s.env = []) : envStep s = s := by
  unfold envStep
  simp only [empty]

theorem envStep_of_cons {s : State} {mv : EnvMove} {rest : List EnvMove} (due : s.env = mv :: rest) :
    envStep s = envMoved mv rest s := by
  unfold envStep
  simp only [due]
  unfold envMove
  simp only [foldl_latch, foldl_envWrite]
  rfl

/-- Bits that each source leaves alone are left by any number of sources, and none is cleared. -/
theorem foldl_or_latchedOutside {f : EnvSource → Word} {m : Word} (apart : ∀ src, f src &&& m = 0)
    (sources : List EnvSource) (w : Word) : LatchedOutside m w (sources.foldl (fun v src => v ||| f src) w) :=
  List.foldlRecOn (motive := LatchedOutside m w) sources _ ⟨BitVec.and_self, rfl⟩ fun _ before src _ => before.or (apart src)

theorem sourceIrptl_apart (src : EnvSource) : sourceIrptl src &&& 0xFFF0421B = 0 := by cases src <;> decide

theorem sourceLirptl_apart (src : EnvSource) : sourceLirptl src &&& 0xFFFFFFF0 = 0 := by cases src <;> decide

end Sys2Proof.Machine

namespace Sys2Proof.Safety
open Sys2Proof.Machine

/-- Settles O43. -/
theorem timerCountsAndReloads : Obligations.TimerCountsAndReloads := by
  refine fun s => ⟨fun on => ⟨fun k left => ?_, ?_⟩, fun off k => cycles_paused off k, fun k => ?_, fun j k => cycles_add j k s⟩
  · rw [cycles_counting on left]
    exact ⟨rfl, rfl⟩
  · rw [cycles_reload on]
    exact ⟨rfl, rfl, rfl⟩
  · obtain ⟨tcount, irptl, timexp, same⟩ := cycles_frame k s
    rw [same]

/-- Settles O44. -/
theorem flagPinsSampled : Obligations.FlagPinsSampled := by
  intro s
  obtain ⟨astat, ioflag⟩ := samplePins_outside s
  exact ⟨samplePins_astat s, samplePins_ioflag s, astat, ioflag, rfl⟩

/-- Settles O45: where a move is left, the next state is `envMoved`. -/
theorem environmentFrame : Obligations.EnvironmentFrame := by
  intro s
  refine ⟨sharedAt_iff s, envStep_of_nil, fun mv rest due => ?_, ?_⟩
  · rw [envStep_of_cons due]
    refine ⟨rfl, rfl, rfl, rfl, fun before after a v writes last shares => ?_, fun a unnamed => ?_⟩
    · unfold envMoved
      rw [writes]
      exact readWord_sharedWritten_last shares s.mem before v last
    · exact readWord_sharedWritten_other (fun w hw same => absurd same (unnamed w hw)) s.mem
  · cases due : s.env with
    | nil =>
      rw [envStep_of_nil due, ← due]
      exact ⟨rfl, BitVec.and_self, BitVec.and_self, rfl, rfl, fun _ _ => rfl⟩
    | cons mv rest =>
      obtain ⟨irptlKept, irptlOutside⟩ := foldl_or_latchedOutside sourceIrptl_apart mv.latches s.irptl
      obtain ⟨lirptlKept, lirptlOutside⟩ := foldl_or_latchedOutside sourceLirptl_apart mv.latches s.lirptl
      rw [envStep_of_cons due, ← due]
      exact ⟨rfl, irptlKept, lirptlKept, irptlOutside, lirptlOutside,
        fun a unshared => readWord_sharedWritten_other (fun _ _ _ => unshared) s.mem⟩

end Sys2Proof.Safety
end

section
/-! CERTIFICATE. The canonical form of memory: it makes a memory equal to any other that reads alike, and every step keeps it. -/

namespace Sys2Proof.Machine
open Sys2Proof.Safety

/-! ### What a canonical list reads as -/

theorem Memory.wf_head {c d : Host.Cell} {m : Memory} (h : Memory.wf (c :: d :: m) = true) : c.1 < d.1 := by
  simp only [Memory.wf, Bool.and_eq_true, decide_eq_true_eq] at h
  exact h.1

/-- The cells after the head lie above it, so nothing is read there up to its address. -/
theorem Memory.read_tail_of_le {c : Host.Cell} {m : Memory} (h : Memory.wf (c :: m) = true) {x : Nat} (hx : x ≤ c.1) :
    Memory.read m x = none := by
  induction m generalizing c with
  | nil => rfl
  | cons d m ih =>
    have below : x < d.1 := hx.trans_lt (Memory.wf_head h)
    rw [Memory.read, if_neg below.ne]
    exact ih (Memory.wf_tail h) below.le

/-- No cell of a canonical list lies below its head. -/
theorem Memory.head_le_of_read {c : Host.Cell} {m : Memory} (h : Memory.wf (c :: m) = true) {x : Nat} {v : Byte}
    (hr : Memory.read (c :: m) x = some v) : c.1 ≤ x := by
  by_contra below
  rw [Memory.read, if_neg (by omega), Memory.read_tail_of_le h (by omega)] at hr
  cases hr

theorem Memory.read_head (c : Host.Cell) (m : Memory) : Memory.read (c :: m) c.1 = some c.2 := by
  rw [Memory.read, if_pos rfl]

/-- Canonical lists that read alike have the same head: each head is read in the other list, so neither lies below the other. -/
theorem Memory.head_eq_of_read {c d : Host.Cell} {m n : Memory} (hm : Memory.wf (c :: m) = true)
    (hn : Memory.wf (d :: n) = true) (alike : ∀ x, Memory.read (c :: m) x = Memory.read (d :: n) x) : c = d := by
  have address : c.1 = d.1 := Nat.le_antisymm (Memory.head_le_of_read hm ((alike d.1).trans (Memory.read_head d n)))
    (Memory.head_le_of_read hn ((alike c.1).symm.trans (Memory.read_head c m)))
  have byte : some c.2 = some d.2 := by
    rw [← Memory.read_head c m, alike, address, Memory.read_head]
  exact Prod.ext address (Option.some.inj byte)

/-- Canonical lists with one head that read alike read alike after it. -/
theorem Memory.read_tail_congr {c : Host.Cell} {m n : Memory} (hm : Memory.wf (c :: m) = true)
    (hn : Memory.wf (c :: n) = true) (alike : ∀ x, Memory.read (c :: m) x = Memory.read (c :: n) x) (x : Nat) :
    Memory.read m x = Memory.read n x := by
  by_cases hx : x = c.1
  · rw [Memory.read_tail_of_le hm hx.le, Memory.read_tail_of_le hn hx.le]
  · have other := alike x
    rwa [Memory.read, if_neg hx, Memory.read, if_neg hx] at other

/-! ### What keeps the canonical form -/

/-- Of the effects of an instruction only a store reaches data memory. -/
theorem Effect.mem_wf {i : Instr} {s t : State} (h : Effect i s t) (hs : Memory.wf s.mem = true) : Memory.wf t.mem = true := by
  cases h with
  | store => exact Memory.wf_writeWord hs _ _
  | _ => exact hs

theorem exec_mem_wf {i : Instr} {s t : State} (h : exec i s = .next t) (hs : Memory.wf s.mem = true) :
    Memory.wf t.mem = true :=
  exec_preserves_of_place (P := fun x => Memory.wf x.mem = true) (fun _ _ => Effect.mem_wf) (fun _ _ _ _ _ ha => ha) h hs

theorem takeInterrupt_mem {n : Interrupt} {s t : State} (h : takeInterrupt n s = .next t) : t.mem = s.mem := by
  obtain ⟨_, u, rfl | ⟨_, rfl⟩, rfl⟩ := takeInterrupt_eq_next h <;> rfl

/-- Of the agents only the environment writes data memory, a word at a time (20_memory R74). -/
theorem agents_mem_wf {s : State} (hs : Memory.wf s.mem = true) : Memory.wf (agents s).mem = true := by
  refine (agentEffects_agents s).preserves (P := fun x => Memory.wf x.mem = true) (fun a b h ha => ?_) hs
  cases h with
  | store => exact Memory.wf_writeWord ha _ _
  | _ => exact ha

theorem step_mem_wf {s t : State} (h : step s = .next t) (hs : Memory.wf s.mem = true) : Memory.wf t.mem = true := by
  have ha := agents_mem_wf hs
  obtain ⟨n, _, ht⟩ | ⟨_, rfl⟩ | ⟨i, wait, _, _, he⟩ := step_eq_next h
  · rwa [takeInterrupt_mem ht]
  · exact ha
  · exact exec_mem_wf he ha

end Sys2Proof.Machine

namespace Sys2Proof.Safety
open Sys2Proof.Machine

/-- Settles O35, by induction on the first list: the heads agree, and so do the reads after them. -/
theorem memoryIsExtensional : Obligations.MemoryIsExtensional := by
  intro m1
  induction m1 with
  | nil =>
    intro m2 _ _ alike
    cases m2 with
    | nil => rfl
    | cons d n => exact nomatch (alike d.1).trans (Memory.read_head d n)
  | cons c m ih =>
    intro m2 h1 h2 alike
    cases m2 with
    | nil => exact nomatch (alike c.1).symm.trans (Memory.read_head c m)
    | cons d n =>
      obtain rfl := Memory.head_eq_of_read h1 h2 alike
      rw [ih n (Memory.wf_tail h1) (Memory.wf_tail h2) (Memory.read_tail_congr h1 h2 alike)]

/-- Settles O52: data memory is written a word at a time, which keeps its form (`step_mem_wf`), and the program text is fixed. -/
theorem memoryStaysCanonical : Obligations.MemoryStaysCanonical := by
  intro s t ⟨data, code⟩ h
  have text : t.code = s.code := (programTextFixed s t h).1
  exact ⟨step_mem_wf h data, text ▸ code⟩

end Sys2Proof.Safety
end
